-- ==== Sys2Proof/Word.lean ====
section
/-! DEFINITION. The word types of the block: the 8-bit wire byte, the 16-bit register word, and the 32-bit result
(spec/00_scope.md R6, spec/30_encoding.md R50, R51, R56). -/

namespace Sys2Proof

/-- One byte on the two-wire bus (R34). -/
abbrev Byte := BitVec 8

/-- A 16-bit device register, the SETTING word or a raw sample (R6 `WORD_W`, `RAW_W`). -/
abbrev Word := BitVec 16

/-- A gain value in the port format GAINQ: 16-bit unsigned fixed point, three fraction bits, eight times the gain (R50). -/
abbrev GainQ := BitVec 16

/-- An integration time in whole milliseconds (R51). -/
abbrev Millis := BitVec 16

/-- The 32-bit result port and the lux value it carries (R56). -/
abbrev Lux := BitVec 32

end Sys2Proof
end

