-- ==== Sys2Proof/Config.lean ====
section
/-! DEFINITION. The open parameters of the block and the free values of its environment (spec/00_scope.md R6,
spec/10_state.md R22, R23, spec/92_eei_decisions.md "Named parameters left open"). An `opaque` constant has no body:
no proof can see its value, so what is proved holds for every value. -/

namespace Sys2Proof

/-- `SETTLE_READS` (R6, R165): what a read of SETTING returns while the device is shut down or settling. -/
inductive SettleReads where
  /-- the reference device model: the stored word in every power state -/
  | storage
  /-- any 16-bit word while SD = 1 or within the settling interval -/
  | any
  deriving DecidableEq, Repr

/-- Whether the single-session assumption of R43 is taken as a launch premise. -/
inductive Session where
  /-- the premise holds: no other master writes SETTING -/
  | single
  /-- the premise is dropped: another master may write SETTING before any transaction of the core -/
  | shared
  deriving DecidableEq, Repr

/-- How a transaction ends (R41, R143). A read of fewer than two bytes, an unacknowledged write and any other failure
the transport reports are `failed`; for the presence probe `ok` is "present" and `failed` is "absent" (R40). -/
inductive Completion where
  | ok
  | failed
  /-- the transport neither succeeds nor fails: the core stays busy (R143, U1) -/
  | never
  deriving DecidableEq, Repr, Inhabited

/-- What the environment contributes to one transaction of the core: the oracle answers of R20, R41, R43 and U13. -/
structure Answer where
  /-- a word another bus master writes to SETTING after the core's previous transaction and before this one (R43,
  R166); looked at only when the session is shared -/
  foreign : Option Word
  /-- how the transaction ends -/
  completion : Completion
  /-- the sample an AMBIENT_LIGHT_DATA read returns (R20); under `SETTLE_READS = any`, also what a SETTING read made
  while the device is shut down or settling returns (R165) -/
  draw : Word
  /-- whether a write that did not end in `ok` reached the device all the same (R147, U13) -/
  landed : Bool
  deriving DecidableEq, Repr, Inhabited

namespace Config

/-- `BUS_ADDR` (R6, D3): the device's address on the bus; neither a value nor a width is given. -/
opaque busAddr : Nat

/-- The 21 cells of `CONV_TABLE` that the spec leaves open (R101, D10), by row and column. The three pinned cells are
in `Machine.convTable`, which never looks at this function there. -/
opaque convTableOpen : Fin 6 → Fin 4 → Word

/-- The environment's answer to the n-th transaction of a run, where no answer has been fixed in advance (R23, R41). -/
opaque freeAnswer : Nat → Answer

/-- The unspecified contents of the device's registers after its own power-up, by register address (R22, R161). -/
opaque initialRegister : Byte → Word

/-- Whether the device happens to be inside a settling interval when a run starts (R21, R161: nothing is known of the
device's power state then). -/
opaque initialSettling : Bool

/-- The unspecified result of `compensate` where the polynomial's floor does not fit the 32-bit port (R105, U3). -/
opaque compensateBeyondPort : Lux → Lux

end Config
end Sys2Proof
end

