-- ==== Sys2Proof/Syntax.lean ====
section
/-! DEFINITION. The seventeen operations of spec/opcode_table.json and the command port they arrive on
(spec/30_encoding.md R60, R61, R63). -/

namespace Sys2Proof

/-- One command on the command port (R60): the operation code and the four operand ports. The block has no packed
command word; this tuple is its whole encoding (R68, R69). -/
structure Command where
  op : BitVec 5
  a  : BitVec 32
  b  : BitVec 16
  c  : BitVec 16
  sh : BitVec 4
  deriving DecidableEq, Repr

/-- An operation with the operands it reads, each named after the port it comes from (R61). Operand ports an operation
does not read are no part of it (R60). -/
inductive Instr where
  | encodeGain (b : GainQ)
  | decodeGain (a : Word)
  | encodeIntegrationTime (c : Millis)
  | decodeIntegrationTime (a : Word)
  | setField (a : Word) (b : Word) (c : Word) (sh : BitVec 4)
  | powerOnWord (a : Word)
  | selectConversionConstant (b : GainQ) (c : Millis)
  | rawToLux (a : Word) (b : GainQ) (c : Millis)
  | compensate (a : Lux)
  | measure (a : Word) (b : GainQ) (c : Millis)
  | setGain (b : GainQ)
  | getGain
  | setIntegrationTime (c : Millis)
  | getIntegrationTime
  | powerOn
  | readLight
  | begin
  deriving DecidableEq, Repr

/-- The groups that bits 4:3 of the operation code name (R63). -/
inductive Group where
  | codec
  | luxEngine
  | bus
  deriving DecidableEq, Repr

/-- The group of each operation (R63). The codec and lux engine groups are the pure operations (R9). -/
def Instr.group : Instr → Group
  | .encodeGain _ | .decodeGain _ | .encodeIntegrationTime _ | .decodeIntegrationTime _ => .codec
  | .setField _ _ _ _ | .powerOnWord _ => .codec
  | .selectConversionConstant _ _ | .rawToLux _ _ _ | .compensate _ | .measure _ _ _ => .luxEngine
  | .setGain _ | .getGain | .setIntegrationTime _ | .getIntegrationTime => .bus
  | .powerOn | .readLight | .begin => .bus

end Sys2Proof
end

