-- ==== Sys2Proof/WellFormed.lean ====
section
/-! DEFINITION. When a command is the canonical encoding of an operation: its operation code is assigned (R63) and
every operand port the operation ignores is written as 0 (R60, R61, R69). Every term of `Instr` is well formed by its
types: each operand has exactly the width of its port. The decoder needs no well-formed command: ignored ports have no
effect (R60). -/

namespace Sys2Proof

/-- The operation code is one of the seventeen of R63, not one of the fifteen reserved codes of R64. -/
def Command.opcodeAssigned (w : Command) : Bool :=
  (w.op ≤ 0x05) || (0x08 ≤ w.op && w.op ≤ 0x0B) || (0x10 ≤ w.op && w.op ≤ 0x16)

/-- Which operand ports the operation of a code reads (R61): all of `a`, `a[15:0]`, `b`, `c`, `sh`. -/
structure PortUse where
  aWhole : Bool := false
  aLow : Bool := false
  b : Bool := false
  c : Bool := false
  sh : Bool := false
  deriving DecidableEq, Repr

/-- The operand table of R61 by operation code; a reserved code reads nothing. -/
def portUse (op : BitVec 5) : PortUse :=
  match op.toNat with
  | 0x00 => { b := true }
  | 0x01 => { aLow := true }
  | 0x02 => { c := true }
  | 0x03 => { aLow := true }
  | 0x04 => { aLow := true, b := true, c := true, sh := true }
  | 0x05 => { aLow := true }
  | 0x08 => { b := true, c := true }
  | 0x09 => { aLow := true, b := true, c := true }
  | 0x0A => { aWhole := true, aLow := true }
  | 0x0B => { aLow := true, b := true, c := true }
  | 0x10 => { b := true }
  | 0x12 => { c := true }
  | _ => {}

/-- Every ignored operand port holds 0 (R69). -/
def Command.ignoredPortsZero (w : Command) : Bool :=
  let u := portUse w.op
  (u.aWhole || w.a.extractLsb' 16 16 == 0) && (u.aLow || w.a.extractLsb' 0 16 == 0) &&
    (u.b || w.b == 0) && (u.c || w.c == 0) && (u.sh || w.sh == 0)

/-- A command as R69 writes it in a program: an assigned code, ignored ports 0. -/
def Command.wellFormed (w : Command) : Bool :=
  w.opcodeAssigned && w.ignoredPortsZero

/-- Two commands agree on the operation code and on every operand port that its operation reads (R60, R61). -/
def Command.sameOperands (w v : Command) : Bool :=
  let u := portUse w.op
  (w.op == v.op) && (!u.aWhole || w.a == v.a) && (!u.aLow || w.a.extractLsb' 0 16 == v.a.extractLsb' 0 16) &&
    (!u.b || w.b == v.b) && (!u.c || w.c == v.c) && (!u.sh || w.sh == v.sh)

end Sys2Proof
end

