-- ==== Sys2Proof/Decode.lean ====
section
/-! DEFINITION. The command decoder, total on every value of the command port, the encoder beside it, and the
interface to the table's numbering of bits (spec/30_encoding.md R60 to R64, R69). -/

namespace Sys2Proof

/-- Why a command selects no operation. -/
inductive DecodeError where
  /-- the operation code is one of the fifteen reserved codes (R64) -/
  | reservedCode (op : BitVec 5)
  deriving DecidableEq, Repr

/-- The low half of port `a`, the operand of an operation that reads only `a[15:0]` (R60). -/
def Command.aLow (w : Command) : Word :=
  w.a.extractLsb' 0 16

/-- The operation code map of R63 with the operands of R61. Every code without a row is reserved (R64). -/
def decode (w : Command) : Except DecodeError Instr :=
  match w.op.toNat with
  | 0x00 => .ok (.encodeGain w.b)
  | 0x01 => .ok (.decodeGain w.aLow)
  | 0x02 => .ok (.encodeIntegrationTime w.c)
  | 0x03 => .ok (.decodeIntegrationTime w.aLow)
  | 0x04 => .ok (.setField w.aLow w.b w.c w.sh)
  | 0x05 => .ok (.powerOnWord w.aLow)
  | 0x08 => .ok (.selectConversionConstant w.b w.c)
  | 0x09 => .ok (.rawToLux w.aLow w.b w.c)
  | 0x0A => .ok (.compensate w.a)
  | 0x0B => .ok (.measure w.aLow w.b w.c)
  | 0x10 => .ok (.setGain w.b)
  | 0x11 => .ok .getGain
  | 0x12 => .ok (.setIntegrationTime w.c)
  | 0x13 => .ok .getIntegrationTime
  | 0x14 => .ok .powerOn
  | 0x15 => .ok .readLight
  | 0x16 => .ok .begin
  | _ => .error (.reservedCode w.op)

/-- The command with every operand port at 0. -/
def Command.bare (op : BitVec 5) : Command :=
  { op := op, a := 0, b := 0, c := 0, sh := 0 }

/-- The tuple `(op, a, b, c, sh)` of an operation, ignored ports written as 0 (R63, R61, R69). -/
def encode : Instr → Command
  | .encodeGain b => { Command.bare 0x00 with b := b }
  | .decodeGain a => { Command.bare 0x01 with a := a.setWidth 32 }
  | .encodeIntegrationTime c => { Command.bare 0x02 with c := c }
  | .decodeIntegrationTime a => { Command.bare 0x03 with a := a.setWidth 32 }
  | .setField a b c sh => { op := 0x04, a := a.setWidth 32, b := b, c := c, sh := sh }
  | .powerOnWord a => { Command.bare 0x05 with a := a.setWidth 32 }
  | .selectConversionConstant b c => { Command.bare 0x08 with b := b, c := c }
  | .rawToLux a b c => { Command.bare 0x09 with a := a.setWidth 32, b := b, c := c }
  | .compensate a => { Command.bare 0x0A with a := a }
  | .measure a b c => { Command.bare 0x0B with a := a.setWidth 32, b := b, c := c }
  | .setGain b => { Command.bare 0x10 with b := b }
  | .getGain => Command.bare 0x11
  | .setIntegrationTime c => { Command.bare 0x12 with c := c }
  | .getIntegrationTime => Command.bare 0x13
  | .powerOn => Command.bare 0x14
  | .readLight => Command.bare 0x15
  | .begin => Command.bare 0x16

/-- The command of a table word: the table numbers the bits of the 5-bit `op` port alone (R63), so bits 4:0 of `w` are
the operation code and every operand port is 0. A bit of `w` above bit 4 is on no wire of the port (log 3). -/
def commandOfTableWord (_nbits w : Nat) : Command :=
  Command.bare (BitVec.ofNat 5 w)

/-- The instruction the decoder reads from a word numbered as spec/opcode_table.json numbers its bits. -/
def decodeTableWord (nbits w : Nat) : Option Instr :=
  match decode (commandOfTableWord nbits w) with
  | .ok i => some i
  | .error _ => none

end Sys2Proof
end

