-- ==== Sys2Proof/Machine/State.lean ====
section
/-! DEFINITION. The state of the machine: the core's ports and transient sequencer state, the device's register file,
the environment's answers, and the machine right after reset (spec/10_state.md R10 to R23). Plain data throughout. -/

namespace Sys2Proof.Machine

/-- The status codes of a response (R62). Codes 5 to 7 are never produced, so they have no constructor. -/
inductive Status where
  | ok
  | rejected
  | unknown
  | busError
  | illegalOp
  deriving DecidableEq, Repr

/-- One response: the status `st` and the result `q` of an operation (R62). -/
structure Response where
  st : Status
  q  : Lux
  deriving DecidableEq, Repr

/-- The transient state of a bus operation in flight (R15). -/
structure Sequencer where
  /-- the operation that was accepted -/
  op : Instr
  /-- how many elements of its sequence (transactions and the wait) have completed -/
  position : Nat
  /-- the register values read so far, oldest first -/
  values : List Word
  deriving DecidableEq, Repr

/-- What the core did on the transport interface (R36, R37, R40, R150): each transaction with the device it addressed,
the bytes that went over the wire after that, and how it ended. -/
inductive BusEvent where
  /-- a read transaction: the register address, the data bytes in the order received (none unless it ended in `ok`) -/
  | read (device : Nat) (addr : Byte) (bytes : List Byte) (done : Completion)
  /-- a write transaction: the register address and the data bytes in the order sent -/
  | write (device : Nat) (addr : Byte) (bytes : List Byte) (done : Completion)
  /-- a call of the wait primitive that returned -/
  | wait (ms : Nat)
  /-- a zero-length transaction: `ok` is present, `failed` is absent -/
  | probe (device : Nat) (done : Completion)
  deriving DecidableEq, Repr

/-- The machine. The block keeps nothing between operations (R10 to R14): what persists is in the device's registers
(R16). INVENTORY.md lists every field with its rule and its reset value. -/
@[ext]
structure State where
  /-- the commands the caller has still to present on the command port, in order (R60, R11) -/
  commands : List Command
  /-- the response port (R62); `none` is no response pending -/
  response : Option Response
  /-- the operation in flight (R15); `none` is idle (R66) -/
  seq : Option Sequencer
  /-- SETTING, device register 0x00 (R17) -/
  setting : Word
  /-- H_THRESH, device register 0x01 (R19, R31) -/
  hThresh : Word
  /-- L_THRESH, device register 0x02 (R19, R31) -/
  lThresh : Word
  /-- POWER_SAVE, device register 0x03 (R19, R31) -/
  powerSave : Word
  /-- AMBIENT_LIGHT_DATA, device register 0x04 (R19, R20): the sample last drawn -/
  ambientLight : Word
  /-- WHITE_LIGHT_DATA, device register 0x05 (R19, R31) -/
  whiteLight : Word
  /-- INTERRUPT, device register 0x06 (R19, R31) -/
  interrupt : Word
  /-- the device is within the settling interval that follows the clearing of SD (R21, R165) -/
  settling : Bool
  /-- the parameter `SETTLE_READS` of the device model (R6, R165) -/
  settleReads : SettleReads
  /-- whether the single-session premise of R43 is taken -/
  session : Session
  /-- the environment's answers to the transactions to come, so far as they have been fixed in advance -/
  answers : List Answer
  /-- how many answers have been used: the index of the next free answer -/
  drawn : Nat
  /-- history of the core's bus activity, oldest first; nothing reads it -/
  bus : List BusEvent
  deriving DecidableEq, Repr

/-- The block has no faults: "the block raises no synchronous exception" (R144) and every error is a response status
(R140). The type is empty, so that no step can end in a fault. Safe or unsafe does not arise. -/
inductive Fault where
  deriving DecidableEq, Repr

/-- Why the model gives a step no meaning. -/
inductive Refusal where
  /-- Raised by an arm of `exec` for an instruction without a meaning; no arm does. Safe. -/
  | notModelled (mnemonic : String)
  /-- Raised by every operation, and by the answer to a reserved code, when a command is presented while an operation
  is in flight: "one command in flight; no command accepted while busy" (R66, D25, U11 `refuse`). Safe. -/
  | commandWhileBusy
  /-- Raised by `resetCore` while an operation is in flight: "a model applies reset only when the core is idle, and
  should refuse it otherwise" (R160, D18, U11 `refuse`). Safe. -/
  | resetWhileBusy
  deriving DecidableEq, Repr

/-- The machine right after reset at the start of a run: the core idle with no response pending (R160, R22), the
device's registers at their unspecified contents (R22, R161: constants without a body), the launch premises of the
spec's programs (95_test_vectors.md section 3), no answer fixed in advance and nothing yet on the bus. -/
def State.reset : State :=
  { commands := []
    response := none
    seq := none
    setting := Config.initialRegister 0x00
    hThresh := Config.initialRegister 0x01
    lThresh := Config.initialRegister 0x02
    powerSave := Config.initialRegister 0x03
    ambientLight := Config.initialRegister 0x04
    whiteLight := Config.initialRegister 0x05
    interrupt := Config.initialRegister 0x06
    settling := Config.initialSettling
    settleReads := .storage
    session := .single
    answers := []
    drawn := 0
    bus := [] }

end Sys2Proof.Machine
end

