-- ==== Sys2Proof/Machine/Flags.lean ====
section
/-! DEFINITION. The status computations: the block has no persistent flags (spec/10_state.md R13), its only condition
is the status of a response (spec/30_encoding.md R62). -/

namespace Sys2Proof.Machine

/-- The 3-bit code of a status (R62). -/
def Status.code : Status → BitVec 3
  | .ok => 0
  | .rejected => 1
  | .unknown => 2
  | .busError => 3
  | .illegalOp => 4

/-- A usable result, already widened to the result port (R62). -/
def respOk (q : Lux) : Response := { st := .ok, q := q }

/-- A usable 16-bit result, zero-extended to the result port (R62, R109). -/
def respWord (q : Word) : Response := respOk (q.setWidth 32)

/-- An unsupported value at an encode or a setter: `q` is 0 (R62, R141). -/
def respRejected : Response := { st := .rejected, q := 0 }

/-- The UNKNOWN image of a millisecond, conversion-constant or lux result: 255 (R62, R142). -/
def respUnknown : Response := { st := .unknown, q := 0x000000FF }

/-- The UNKNOWN image of a gain result: 255.0 as GAINQ (R62, R50). -/
def respUnknownGain : Response := { st := .unknown, q := 0x000007F8 }

/-- A transaction failed: `q` is 0 (R62, R143). -/
def respBusError : Response := { st := .busError, q := 0 }

/-- The operation code is reserved: `q` is 0 (R62, R64). -/
def respIllegalOp : Response := { st := .illegalOp, q := 0 }

end Sys2Proof.Machine
end

