-- ==== Sys2Proof/Machine/Operands.lean ====
section
/-! DEFINITION. The data encodings: gains and integration times in each of their numberings, the fields of the SETTING
word, and the byte order of a register on the wire (spec/30_encoding.md R50 to R59, spec/20_memory.md R34). -/

namespace Sys2Proof.Machine

/-- The four supported gains (R6 `GAIN_SET`), from the largest to the smallest. -/
inductive Gain where
  | x2
  | x1
  | x025
  | x0125
  deriving DecidableEq, Repr

/-- The six supported integration times (R6 `IT_SET`), from the longest to the shortest. -/
inductive ITime where
  | ms800
  | ms400
  | ms200
  | ms100
  | ms50
  | ms25
  deriving DecidableEq, Repr

/-- The gain as GAINQ (R50). -/
def Gain.toQ : Gain → GainQ
  | .x2 => 0x0010
  | .x1 => 0x0008
  | .x025 => 0x0002
  | .x0125 => 0x0001

/-- The supported gain that a GAINQ value is, by exact equality; none for every other value (R50, R80). -/
def Gain.ofQ (g : GainQ) : Option Gain :=
  if g = 0x0010 then some .x2
  else if g = 0x0008 then some .x1
  else if g = 0x0002 then some .x025
  else if g = 0x0001 then some .x0125
  else none

/-- The 2-bit GAIN field value of a gain (R52). -/
def Gain.bits : Gain → Word
  | .x2 => 1
  | .x1 => 0
  | .x025 => 3
  | .x0125 => 2

/-- The gain of a field value; none for 4 to 65535 (R52, R81). -/
def Gain.ofBits (fb : Word) : Option Gain :=
  if fb = 0 then some .x1
  else if fb = 1 then some .x2
  else if fb = 2 then some .x0125
  else if fb = 3 then some .x025
  else none

/-- The ConversionTable column of a gain (R58). -/
def Gain.col : Gain → Fin 4
  | .x2 => 0
  | .x1 => 1
  | .x025 => 2
  | .x0125 => 3

/-- The integration time in milliseconds (R51). -/
def ITime.toMs : ITime → Millis
  | .ms800 => 800
  | .ms400 => 400
  | .ms200 => 200
  | .ms100 => 100
  | .ms50 => 50
  | .ms25 => 25

/-- The supported integration time that a millisecond count is, by exact equality (R51, R82). -/
def ITime.ofMs (t : Millis) : Option ITime :=
  if t = 800 then some .ms800
  else if t = 400 then some .ms400
  else if t = 200 then some .ms200
  else if t = 100 then some .ms100
  else if t = 50 then some .ms50
  else if t = 25 then some .ms25
  else none

/-- The 4-bit IT field value of an integration time (R53). -/
def ITime.bits : ITime → Word
  | .ms800 => 3
  | .ms400 => 2
  | .ms200 => 1
  | .ms100 => 0
  | .ms50 => 8
  | .ms25 => 12

/-- The integration time of a field value; none for the unrecognised values (R53, R83). -/
def ITime.ofBits (fb : Word) : Option ITime :=
  if fb = 0 then some .ms100
  else if fb = 1 then some .ms200
  else if fb = 2 then some .ms400
  else if fb = 3 then some .ms800
  else if fb = 8 then some .ms50
  else if fb = 12 then some .ms25
  else none

/-- The ConversionTable row of an integration time (R57). -/
def ITime.row : ITime → Fin 6
  | .ms800 => 0
  | .ms400 => 1
  | .ms200 => 2
  | .ms100 => 3
  | .ms50 => 4
  | .ms25 => 5

/-- Keep-mask of the GAIN field (R54). -/
def gainKeep : Word := 0xE7FF
/-- Shift of the GAIN field (R54). -/
def gainShift : BitVec 4 := 11
/-- Keep-mask of the IT field (R54). -/
def itKeep : Word := 0xFC3F
/-- Shift of the IT field (R54). -/
def itShift : BitVec 4 := 6
/-- Keep-mask of the SD field (R54). -/
def sdKeep : Word := 0xFFFE
/-- Shift of the SD field (R54). -/
def sdShift : BitVec 4 := 0

/-- Insertion of field bits: the keep-mask's bits of `r`, or'ed with `v` shifted left; bits shifted past bit 15 are
dropped (R54, R84). -/
def insertField (r keep v : Word) (sh : BitVec 4) : Word :=
  (r &&& keep) ||| (v <<< sh.toNat)

/-- Extraction of a field: the bits outside the keep-mask, shifted right (R54). -/
def extractField (r keep : Word) (sh : BitVec 4) : Word :=
  (r &&& ~~~keep) >>> sh.toNat

/-- The GAIN field, `r[12:11]` (R54). -/
def gainField (r : Word) : Word := extractField r gainKeep gainShift

/-- The IT field, `r[9:6]` (R54). -/
def itField (r : Word) : Word := extractField r itKeep itShift

/-- The SD bit, `r[0]`: true is shut down (R17, R54). -/
def sdBit (r : Word) : Bool := r.getLsbD 0

/-- The byte of a register sent first on the wire: the least significant one (R34, R59). -/
def lsByte (v : Word) : Byte := v.extractLsb' 0 8

/-- The byte of a register sent second on the wire: the most significant one (R34, R59). -/
def msByte (v : Word) : Byte := v.extractLsb' 8 8

/-- The register value of two bytes received, byte 0 the least significant: `{b1, b0}` (R38). -/
def wordOfBytes (b0 b1 : Byte) : Word := b1 ++ b0

end Sys2Proof.Machine
end

