-- ==== Sys2Proof/Machine/Ops.lean ====
section
/-! DEFINITION. The shared operations: the command and response ports, the transport primitives over the device
register space, the reset of the block, and the way an operation runs (spec/20_memory.md R30 to R45,
spec/30_encoding.md R62, R66, spec/60_exceptions.md R143, R147, R150, spec/70_reset_and_hazards.md R160).

There is no exception to take and none to return from (R144, R147): what the spec gives in their place, an operation
that ends with an error status, is `conclude`. -/

namespace Sys2Proof.Machine

/-! ## The ports -/

/-- The next command the caller presents, and the machine with that command taken off the port (R60, R11). -/
def fetch (s : State) : Option (Command × State) :=
  match s.commands with
  | [] => none
  | w :: rest => some (w, { s with commands := rest })

/-- Acceptance of a command: the core is busy with `i` from its first transaction, holding no value yet, and the
response of the previous command is gone from the port (R15, R66; log 15). -/
def State.accept (s : State) (i : Instr) : State :=
  { s with seq := some { op := i, position := 0, values := [] }, response := none }

/-- The one response of an operation: it stands on the response port and the core is idle (R62, R66). -/
def State.respond (s : State) (r : Response) : State :=
  { s with seq := none, response := some r }

/-- One element of the sequence in flight has completed and has read `vs` (R15; log 23). -/
def State.advance (s : State) (vs : List Word) : State :=
  { s with seq := s.seq.map fun q => { q with position := q.position + 1, values := q.values ++ vs } }

/-! ## The device register space -/

/-- The device register at an address, by the address map of R31; an address above 0x06 names none (R32). -/
def State.register (s : State) (addr : Byte) : Option Word :=
  match addr.toNat with
  | 0x00 => some s.setting
  | 0x01 => some s.hThresh
  | 0x02 => some s.lThresh
  | 0x03 => some s.powerSave
  | 0x04 => some s.ambientLight
  | 0x05 => some s.whiteLight
  | 0x06 => some s.interrupt
  | _ => none

/-- The two registers the core reads (R31, R127). -/
inductive ReadReg where
  | setting
  | ambientLight
  deriving DecidableEq, Repr

/-- Their addresses (R31). -/
def ReadReg.addr : ReadReg → Byte
  | .setting => 0x00
  | .ambientLight => 0x04

/-- The address of the one register the core writes, SETTING (R31, R127). -/
def settingAddr : Byte := 0x00

/-- SETTING takes a word, whoever writes it; clearing SD from 1 to 0 begins the settling interval (R20, R165; log 18). -/
def State.storeSetting (s : State) (w : Word) : State :=
  { s with setting := w, settling := s.settling || (sdBit s.setting && !sdBit w) }

/-- The device puts a new sample into AMBIENT_LIGHT_DATA (R20). -/
def State.storeSample (s : State) (v : Word) : State :=
  { s with ambientLight := v }

/-- SETTING reads are "meaningful": the device is powered on and settled (R165). -/
def State.powered (s : State) : Bool :=
  !sdBit s.setting && !s.settling

/-! ## The environment's answers -/

/-- The environment's answer to the k-th transaction from here: one fixed in advance, or else a free one (R41; log 7). -/
def State.answer (s : State) (k : Nat) : Answer :=
  match s.answers[k]? with
  | some a => a
  | none => Config.freeAnswer (s.drawn + k)

/-- One answer has been used. -/
def State.useAnswer (s : State) : State :=
  { s with answers := s.answers.tail, drawn := s.drawn + 1 }

/-- What another master did to SETTING since the core's last transaction: nothing under the single-session premise
(R43); otherwise the word of the answer, if it names one (R166; log 19). -/
def State.foreignWrite (s : State) (a : Answer) : State :=
  match s.session, a.foreign with
  | .shared, some w => s.storeSetting w
  | _, _ => s

/-- The machine as a transaction begins: the answer is used and any foreign write has landed. -/
def State.arrive (s : State) : State :=
  s.useAnswer.foreignWrite (s.answer 0)

/-- One more entry in the bus history. -/
def State.record (s : State) (e : BusEvent) : State :=
  { s with bus := s.bus ++ [e] }

/-! ## Transactions -/

/-- The result of a transaction or of a sequence of them: it went through, the transport reported a failure, or a
transaction never completed (R41, R143). -/
inductive Tx (α : Type) where
  | ok (v : α) (s : State)
  | failed (s : State)
  | never (s : State)

/-- Continue after a transaction that went through; "the core then issues no further transaction for that operation"
(R41) after any other. -/
def Tx.bind {α β : Type} (x : Tx α) (f : α → State → Tx β) : Tx β :=
  match x with
  | .ok v s => f v s
  | .failed s => .failed s
  | .never s => .never s

/-- The word the device returns to a read that goes through. AMBIENT_LIGHT_DATA: a draw. SETTING: the stored word, or
any word when `SETTLE_READS = any` and the device is shut down or settling (R20, R165). -/
def deviceReply (r : ReadReg) (a : Answer) (s : State) : Word :=
  match r with
  | .ambientLight => a.draw
  | .setting => if !s.powered && s.settleReads == .any then a.draw else s.setting

/-- The device after a read that goes through: a new sample stands in AMBIENT_LIGHT_DATA, and a SETTING read has no
side effect (R20; log 17). -/
def deviceAfterRead (r : ReadReg) (v : Word) (s : State) : State :=
  match r with
  | .ambientLight => s.storeSample v
  | .setting => s

/-- `MemRead(addr, 2)` (R36): the two data bytes in the order they arrive, least significant first (R34). -/
def memRead (r : ReadReg) (s : State) : Tx (Byte × Byte) :=
  let a := s.answer 0
  let t := s.arrive
  match a.completion with
  | .ok =>
    let v := deviceReply r a t
    .ok (lsByte v, msByte v)
      ((deviceAfterRead r v t).record (.read Config.busAddr r.addr [lsByte v, msByte v] .ok))
  | .failed => .failed (t.record (.read Config.busAddr r.addr [] .failed))
  | .never => .never (t.record (.read Config.busAddr r.addr [] .never))

/-- The device after a write of SETTING: it holds the word if the write went through, or if the write did not go
through but landed all the same (R20, R147, U13). -/
def deviceAfterWrite (a : Answer) (b0 b1 : Byte) (s : State) : State :=
  if a.completion = .ok || a.landed then s.storeSetting (wordOfBytes b0 b1) else s

/-- `MemWrite(0x00, 2, {b1, b0})` (R37): the register address, then `b0`, then `b1`. Only SETTING is ever written. -/
def memWrite (b0 b1 : Byte) (s : State) : Tx Unit :=
  let a := s.answer 0
  let t := (deviceAfterWrite a b0 b1 s.arrive).record
    (.write Config.busAddr settingAddr [b0, b1] a.completion)
  match a.completion with
  | .ok => .ok () t
  | .failed => .failed t
  | .never => .never t

/-- `RegRead16(addr)` (R38): the value `{b1, b0}`. -/
def regRead16 (r : ReadReg) (s : State) : Tx Word :=
  (memRead r s).bind fun b t => .ok (wordOfBytes b.1 b.2) (t.advance [wordOfBytes b.1 b.2])

/-- `RegWrite16(0x00, v)` (R39): least significant byte first. -/
def regWrite16 (v : Word) (s : State) : Tx Unit :=
  (memWrite (lsByte v) (msByte v) s).bind fun _ t => .ok () (t.advance [])

/-- `Probe()` (R40): whether the device answered. Absence is an answer, not a failure. -/
def probe (s : State) : Tx Bool :=
  let a := s.answer 0
  let t := s.arrive.record (.probe Config.busAddr a.completion)
  match a.completion with
  | .ok => .ok true (t.advance [])
  | .failed => .ok false (t.advance [])
  | .never => .never t

/-- `Wait(ms)` (R150): it returns after at least `ms` milliseconds and has no other effect; a wait of 4 ms or more
meets the settling obligation (R165; log 18). -/
def wait (ms : Nat) (s : State) : State :=
  ({ s with settling := s.settling && ms < 4 }.record (.wait ms)).advance []

/-! ## How an operation runs -/

/-- One command at a time: an operation takes place only while the core is idle (R66, U11). -/
def whenIdle (s t : State) : Host.Outcome State Fault Refusal :=
  match s.seq with
  | none => .next t
  | some _ => .refused .commandWhileBusy

/-- A pure operation: it "responds without any bus activity" (R66) and changes nothing but the response port. -/
def pureOp (r : Response) (s : State) : Host.Outcome State Fault Refusal :=
  whenIdle s (s.respond r)

/-- The end of a bus operation: its response; BUS_ERROR after a failed transaction (R41, R143); no response, and the
core busy for ever, after one that never completes (R143, U1). -/
def conclude (x : Tx Response) : State :=
  match x with
  | .ok r s => s.respond r
  | .failed s => s.respond respBusError
  | .never s => s

/-- A bus operation: accepted, run through its sequence, concluded (R15, R66). -/
def busOp (i : Instr) (run : State → Tx Response) (s : State) : Host.Outcome State Fault Refusal :=
  whenIdle s (conclude (run (s.accept i)))

/-- The answer to a reserved operation code: ILLEGAL_OP, no transaction, nothing changed (R64, R148). -/
def illegalOp (s : State) : Host.Outcome State Fault Refusal :=
  pureOp respIllegalOp s

/-- Reset of the block while a run goes on (R160, R161): only when idle; no response pending afterwards; the device
keeps what it holds. -/
def resetCore (s : State) : Host.Outcome State Fault Refusal :=
  match s.seq with
  | none => .next { s with response := none }
  | some _ => .refused .resetWhileBusy

end Sys2Proof.Machine
end

