-- ==== Sys2Proof/Machine/Codec.lean ====
section
/-! DEFINITION. The six Register Codec operations and the two helper functions (spec/40_register_codec.md). -/

namespace Sys2Proof.Machine

/-- R80. -/
def encodeGain (g : GainQ) : Response :=
  match Gain.ofQ g with
  | some x => respWord x.bits
  | none => respRejected

/-- R81. -/
def decodeGain (fb : Word) : Response :=
  match Gain.ofBits fb with
  | some x => respWord x.toQ
  | none => respUnknownGain

/-- R82. -/
def encodeIntegrationTime (t : Millis) : Response :=
  match ITime.ofMs t with
  | some x => respWord x.bits
  | none => respRejected

/-- R83. -/
def decodeIntegrationTime (fb : Word) : Response :=
  match ITime.ofBits fb with
  | some x => respWord x.toMs
  | none => respUnknown

/-- R84, the formula on 16-bit words: `bits` is not masked to a field and `mask` is not checked (R167). -/
def setField (r mask bits : Word) (shift : BitVec 4) : Word :=
  insertField r mask bits shift

/-- R85: `set_field` on the SD field with the value 0, powered on. -/
def powerOnWord (r : Word) : Word :=
  setField r sdKeep 0 sdShift

/-- R86 `gain_word`: the status OK or REJECTED as an option beside the resulting SETTING word. -/
def gainWord (r : Word) (g : GainQ) : Status × Word :=
  match Gain.ofQ g with
  | some x => (.ok, setField r gainKeep x.bits gainShift)
  | none => (.rejected, r)

/-- R87 `integration_time_word`. -/
def integrationTimeWord (r : Word) (t : Millis) : Status × Word :=
  match ITime.ofMs t with
  | some x => (.ok, setField r itKeep x.bits itShift)
  | none => (.rejected, r)

/-- `encode_gain` (R80). -/
def execEncodeGain (b : GainQ) (s : State) : Host.Outcome State Fault Refusal :=
  pureOp (encodeGain b) s

/-- `decode_gain` (R81). -/
def execDecodeGain (a : Word) (s : State) : Host.Outcome State Fault Refusal :=
  pureOp (decodeGain a) s

/-- `encode_integration_time` (R82). -/
def execEncodeIntegrationTime (c : Millis) (s : State) : Host.Outcome State Fault Refusal :=
  pureOp (encodeIntegrationTime c) s

/-- `decode_integration_time` (R83). -/
def execDecodeIntegrationTime (a : Word) (s : State) : Host.Outcome State Fault Refusal :=
  pureOp (decodeIntegrationTime a) s

/-- `set_field` (R84). -/
def execSetField (a b c : Word) (sh : BitVec 4) (s : State) : Host.Outcome State Fault Refusal :=
  pureOp (respWord (setField a b c sh)) s

/-- `power_on_word` (R85). -/
def execPowerOnWord (a : Word) (s : State) : Host.Outcome State Fault Refusal :=
  pureOp (respWord (powerOnWord a)) s

end Sys2Proof.Machine
end

