-- ==== Sys2Proof/Machine/Lux.lean ====
section
/-! DEFINITION. The four Lux Engine operations and the ConversionTable (spec/41_lux_engine.md). Each computation takes
the table as an argument (R101); the operations use `convTable`. Arithmetic is exact: integers are computed whole and
narrowed once, at the result (R109, D11, D12). -/

namespace Sys2Proof.Machine

/-- `CONV_TABLE` by row and column (R100): the three cells the spec pins, and 21 open ones (R101, D10). -/
def convTable (row : Fin 6) (col : Fin 4) : Word :=
  if row = 0 ∧ col = 0 then 36
  else if row = 3 ∧ col = 1 then 288
  else if row = 5 ∧ col = 3 then 18432
  else Config.convTableOpen row col

/-- `CONV_TABLE_GK`, the general-knowledge table `36 × 2^row × {1, 2, 8, 16}[col]` (R101); no operation uses it. -/
def convTableGK (row : Fin 6) (col : Fin 4) : Word :=
  BitVec.ofNat 16 (36 * 2 ^ row.val * [1, 2, 8, 16][col.val]!)

/-- `CONV_TABLE_REF`, the reference instance: `CONV_TABLE_GK` with cell [3][1] replaced by the source's 288 (R101); no
operation uses it. -/
def convTableRef (row : Fin 6) (col : Fin 4) : Word :=
  if row = 3 ∧ col = 1 then 288 else convTableGK row col

/-- The threshold of `measure`, in lux (R6, R106). -/
def threshold : Nat := 1000

/-- R102: the constant M of a recognised gain and time; none is UNKNOWN. -/
def selectConstant (table : Fin 6 → Fin 4 → Word) (g : GainQ) (t : Millis) : Option Word :=
  match Gain.ofQ g, ITime.ofMs t with
  | some x, some y => some (table y.row x.col)
  | _, _ => none

/-- `floor(raw × K)` with K = M / 10^4, exact (R103). -/
def luxOf (raw m : Word) : Lux :=
  BitVec.ofNat 32 (raw.toNat * m.toNat / 10000)

/-- R103: the lux of a raw sample; none is UNKNOWN. -/
def rawToLux (table : Fin 6 → Fin 4 → Word) (raw : Word) (g : GainQ) (t : Millis) : Option Lux :=
  (selectConstant table g t).map (luxOf raw)

/-- The positive terms of the polynomial over 10^17 (R105). -/
def polyPos (x : Nat) : Nat :=
  60135 * x ^ 4 + 81488 * 10 ^ 8 * x ^ 2 + 10023 * 10 ^ 13 * x

/-- The cubic term of the polynomial over 10^17, to be subtracted (R105). -/
def polyNeg (x : Nat) : Nat :=
  93924 * 10 ^ 4 * x ^ 3

/-- The floor of the polynomial's exact value (R105). The difference is taken in the integers, so that nothing rests on
its sign; R105 says that it is never negative. -/
def compensated (x : Nat) : Nat :=
  (((polyPos x : Int) - (polyNeg x : Int)) / (10 ^ 17 : Int)).toNat

/-- R105: the compensated lux, where it fits the 32-bit port; otherwise the result is unspecified, a free value of the
operand (U3; log 8). -/
def compensate (x : Lux) : Lux :=
  if compensated x.toNat < 2 ^ 32 then BitVec.ofNat 32 (compensated x.toNat)
  else Config.compensateBeyondPort x

/-- R106: `lux` up to the threshold, `compensate(lux)` above it; the comparison is strict and on the truncated lux. -/
def measureLux (lux : Lux) : Lux :=
  if threshold < lux.toNat then compensate lux else lux

/-- The response of `measure` (R106), UNKNOWN where the lookup failed (R108). -/
def measureResponse (table : Fin 6 → Fin 4 → Word) (raw : Word) (g : GainQ) (t : Millis) : Response :=
  match rawToLux table raw g t with
  | some lux => respOk (measureLux lux)
  | none => respUnknown

/-- `select_conversion_constant` (R102). -/
def execSelectConversionConstant (b : GainQ) (c : Millis) (s : State) : Host.Outcome State Fault Refusal :=
  pureOp (match selectConstant convTable b c with | some m => respWord m | none => respUnknown) s

/-- `raw_to_lux` (R103). -/
def execRawToLux (a : Word) (b : GainQ) (c : Millis) (s : State) : Host.Outcome State Fault Refusal :=
  pureOp (match rawToLux convTable a b c with | some lux => respOk lux | none => respUnknown) s

/-- `compensate` (R105). -/
def execCompensate (a : Lux) (s : State) : Host.Outcome State Fault Refusal :=
  pureOp (respOk (compensate a)) s

/-- `measure` (R106). -/
def execMeasure (a : Word) (b : GainQ) (c : Millis) (s : State) : Host.Outcome State Fault Refusal :=
  pureOp (measureResponse convTable a b c) s

end Sys2Proof.Machine
end

