-- ==== Sys2Proof/Machine/Bus.lean ====
section
/-! DEFINITION. The seven bus operations (spec/42_bus_operations.md R120 to R129): each a fixed sequence of
transactions around calls of the pure computations. -/

namespace Sys2Proof.Machine

/-- The read-modify-write of one field (R18, R45): read SETTING, replace the field, write the whole word back. The
write is issued even when the word does not change (R120). -/
def updateSetting (f : Word → Word) (s : State) : Tx Unit :=
  (regRead16 .setting s).bind fun r t => regWrite16 (f r) t

/-- The sequence of a setter whose encode gave `fb` (R120, R122). -/
def writeField (keep fb : Word) (sh : BitVec 4) (s : State) : Tx Response :=
  (updateSetting (fun r => setField r keep fb sh) s).bind fun _ t => .ok (respOk 0) t

/-- The power-on sequence (R124): clear the shutdown bit by read-modify-write, then wait 4 ms. -/
def powerOnSequence (s : State) : Tx Unit :=
  (updateSetting powerOnWord s).bind fun _ t => .ok () (wait 4 t)

/-- R121: one SETTING read, its GAIN field decoded. -/
def getGainSequence (s : State) : Tx Response :=
  (regRead16 .setting s).bind fun r t => .ok (decodeGain (gainField r)) t

/-- R123: one SETTING read, its IT field decoded. -/
def getIntegrationTimeSequence (s : State) : Tx Response :=
  (regRead16 .setting s).bind fun r t => .ok (decodeIntegrationTime (itField r)) t

/-- R125: the sample, then SETTING for the gain, then SETTING for the time, then `measure` on the decoded values; an
UNKNOWN time goes in as its image. -/
def readLightSequence (s : State) : Tx Response :=
  (regRead16 .ambientLight s).bind fun raw t =>
  (regRead16 .setting t).bind fun r1 u =>
  (regRead16 .setting u).bind fun r2 v =>
  .ok (measureResponse convTable raw ((decodeGain (gainField r1)).q.setWidth 16)
    ((decodeIntegrationTime (itField r2)).q.setWidth 16)) v

/-- The result of `begin`: 1 is success, 0 is failure (R126). -/
def respSuccess (present : Bool) : Response :=
  respOk (if present then 1 else 0)

/-- R126: the power-on sequence, then the probe; the first failure ends it with result 0 and status OK. -/
def beginSequence (s : State) : Tx Response :=
  match powerOnSequence s with
  | .ok _ t => (probe t).bind fun present u => .ok (respSuccess present) u
  | .failed t => .ok (respSuccess false) t
  | .never t => .never t

/-- `set_gain` (R120): an unsupported gain ends it before any transaction. -/
def execSetGain (b : GainQ) (s : State) : Host.Outcome State Fault Refusal :=
  match Gain.ofQ b with
  | some x => busOp (.setGain b) (writeField gainKeep x.bits gainShift) s
  | none => pureOp respRejected s

/-- `get_gain` (R121). -/
def execGetGain (s : State) : Host.Outcome State Fault Refusal :=
  busOp .getGain getGainSequence s

/-- `set_integration_time` (R122): an unsupported time ends it before any transaction. -/
def execSetIntegrationTime (c : Millis) (s : State) : Host.Outcome State Fault Refusal :=
  match ITime.ofMs c with
  | some x => busOp (.setIntegrationTime c) (writeField itKeep x.bits itShift) s
  | none => pureOp respRejected s

/-- `get_integration_time` (R123). -/
def execGetIntegrationTime (s : State) : Host.Outcome State Fault Refusal :=
  busOp .getIntegrationTime getIntegrationTimeSequence s

/-- `power_on` (R124). -/
def execPowerOn (s : State) : Host.Outcome State Fault Refusal :=
  busOp .powerOn (fun t => (powerOnSequence t).bind fun _ u => .ok (respOk 0) u) s

/-- `read_light` (R125). -/
def execReadLight (s : State) : Host.Outcome State Fault Refusal :=
  busOp .readLight readLightSequence s

/-- `begin` (R126). -/
def execBegin (s : State) : Host.Outcome State Fault Refusal :=
  busOp .begin beginSequence s

end Sys2Proof.Machine
end

