-- ==== Sys2Proof/Machine/Dispatch.lean ====
section
/-! DEFINITION. One arm per operation of the table (spec/30_encoding.md R63), each a call of its meaning. -/

namespace Sys2Proof.Machine

def exec (i : Instr) (s : State) : Host.Outcome State Fault Refusal :=
  match i with
  | .encodeGain b => Sys2Proof.Machine.execEncodeGain b s
  | .decodeGain a => Sys2Proof.Machine.execDecodeGain a s
  | .encodeIntegrationTime c => Sys2Proof.Machine.execEncodeIntegrationTime c s
  | .decodeIntegrationTime a => Sys2Proof.Machine.execDecodeIntegrationTime a s
  | .setField a b c sh => Sys2Proof.Machine.execSetField a b c sh s
  | .powerOnWord a => Sys2Proof.Machine.execPowerOnWord a s
  | .selectConversionConstant b c => Sys2Proof.Machine.execSelectConversionConstant b c s
  | .rawToLux a b c => Sys2Proof.Machine.execRawToLux a b c s
  | .compensate a => Sys2Proof.Machine.execCompensate a s
  | .measure a b c => Sys2Proof.Machine.execMeasure a b c s
  | .setGain b => Sys2Proof.Machine.execSetGain b s
  | .getGain => Sys2Proof.Machine.execGetGain s
  | .setIntegrationTime c => Sys2Proof.Machine.execSetIntegrationTime c s
  | .getIntegrationTime => Sys2Proof.Machine.execGetIntegrationTime s
  | .powerOn => Sys2Proof.Machine.execPowerOn s
  | .readLight => Sys2Proof.Machine.execReadLight s
  | .begin => Sys2Proof.Machine.execBegin s

end Sys2Proof.Machine
end

