-- ==== Sys2Proof/Machine/Step.lean ====
section
/-! DEFINITION. One step: the caller presents its next command and the core answers it (spec/30_encoding.md R66,
spec/10_state.md R11). -/

namespace Sys2Proof.Machine

/-- With no command presented nothing happens: an idle core stays idle, a core whose transaction never completed stays
busy (R66, R143). A command is decoded; a reserved code is answered ILLEGAL_OP (R64). -/
def step (s : State) : Host.Outcome State Fault Refusal :=
  match fetch s with
  | none => .next s
  | some (w, t) =>
    match decode w with
    | .ok i => exec i t
    | .error _ => illegalOp t

/-- `s` with the command of a table word presented next, in place of what the caller would have presented (log 3). -/
def State.withFetchWord (s : State) (nbits w : Nat) : State :=
  { s with commands := commandOfTableWord nbits w :: s.commands.tail }

end Sys2Proof.Machine
end

