-- ==== Sys2Proof/Safety.lean ====
section
/-! DEFINITION. The terms claims are written in: idle and busy states, premises on the environment, and what a safe
step and a safe run are. -/

namespace Sys2Proof.Machine

/-- No operation is in flight (R66). -/
abbrev State.Idle (s : State) : Prop := s.seq = none

/-- A step gives a next state: it neither faults nor is refused. -/
def SafeStep (s : State) : Prop := ∃ t, step s = .next t

/-- Each of the first `n` steps from `s` gives a next state. -/
def SafeRun : Nat → State → Prop
  | 0, _ => True
  | n + 1, s => ∃ t, step s = .next t ∧ SafeRun n t

/-- A response of a shape that R62 allows: an error's value is 0, and UNKNOWN carries one of its two images. -/
def Response.legal (r : Response) : Prop :=
  match r.st with
  | .ok => True
  | .unknown => r.q = 0x000000FF ∨ r.q = 0x000007F8
  | .rejected | .busError | .illegalOp => r.q = 0

/-- The event is one the core may cause (R127): it reads SETTING or AMBIENT_LIGHT_DATA, writes SETTING, two bytes at a
time (R33), waits 4 ms, or probes; always the device at `BUS_ADDR`. -/
def BusEvent.permitted : BusEvent → Prop
  | .read d addr bytes done =>
    d = Config.busAddr ∧ (addr = 0x00 ∨ addr = 0x04) ∧ bytes.length = if done = .ok then 2 else 0
  | .write d addr bytes _ => d = Config.busAddr ∧ addr = 0x00 ∧ bytes.length = 2
  | .wait ms => ms = 4
  | .probe d _ => d = Config.busAddr

/-- The invariant of the machine: a busy core shows no response and is running a bus operation, of which at most three
elements have completed (R66, R62, R127); a response that stands is legal; the bus history holds only permitted events. -/
structure State.Inv (s : State) : Prop where
  busySilent : ∀ q, s.seq = some q → s.response = none
  busyOnBus : ∀ q, s.seq = some q → q.op.group = .bus ∧ q.position ≤ 3 ∧ q.values.length ≤ q.position
  legalResponse : ∀ r, s.response = some r → r.legal
  busPermitted : ∀ e ∈ s.bus, e.permitted

end Sys2Proof.Machine
end

