-- ==== Sys2Proof/Certificates/Slice0/Obligations.lean ====
section
/-! DEFINITION. The statements for the provers. Each is about every state and every operand it names. "Idle" is R66: no
operation in flight. Where a statement takes the single-session premise it is R43's launch premise; statements without
it hold under foreign writes as well. -/

open Sys2Proof Sys2Proof.Machine

/-! ## The terms the statements are written in -/

namespace Sys2Proof.Claims

/-- The machine after a pure operation with response `(st, q)`: the response and nothing else (R10, R13, R66). -/
def responded (s : State) (st : Status) (q : Lux) : State := { s with response := some ⟨st, q⟩ }

/-- The four supported gains as GAINQ, each with its GAIN field bits (R52). -/
def gains : List (GainQ × Word) := [(0x0008, 0), (0x0010, 1), (0x0001, 2), (0x0002, 3)]

/-- The six supported integration times, each with its IT field bits (R53). -/
def times : List (Millis × Word) := [(100, 0), (200, 1), (400, 2), (800, 3), (50, 8), (25, 12)]

/-- The four supported gains, each with its ConversionTable column (R58). -/
def columns : List (GainQ × Fin 4) := [(0x0010, 0), (0x0008, 1), (0x0002, 2), (0x0001, 3)]

/-- The six supported integration times, each with its ConversionTable row (R57). -/
def rows : List (Millis × Fin 6) := [(800, 0), (400, 1), (200, 2), (100, 3), (50, 4), (25, 5)]

/-- The gain is none of the four supported ones (R50). -/
def Unsupported (g : GainQ) : Prop := ∀ b, (g, b) ∉ gains

/-- The time is none of the six supported ones (R51). -/
def UnsupportedTime (t : Millis) : Prop := ∀ b, (t, b) ∉ times

/-- What a SETTING read made as the k-th transaction from `s` returns while SETTING stays as it is in `s`: the stored
word; any word if `SETTLE_READS = any` and the device is shut down or settling (R20, R165). -/
def settingWord (s : State) (k : Nat) : Word :=
  if s.settleReads = .any ∧ (s.setting.getLsbD 0 = true ∨ s.settling = true) then (s.answer k).draw else s.setting

/-- The settling interval after SETTING takes `w`: it goes on, or it begins because SD is cleared (R165). -/
def settlingAfter (s : State) (w : Word) : Bool :=
  s.settling || (s.setting.getLsbD 0 && !w.getLsbD 0)

/-- A read transaction of register `addr` that went through and returned `v`, least significant byte first (R34). -/
def readEvent (addr : Byte) (v : Word) : BusEvent :=
  .read Config.busAddr addr [v.extractLsb' 0 8, v.extractLsb' 8 8] .ok

/-- A read transaction that did not go through. -/
def lostRead (addr : Byte) (done : Completion) : BusEvent := .read Config.busAddr addr [] done

/-- The write transaction of SETTING with `v`, least significant byte first (R37), and how it ended. -/
def writeEvent (v : Word) (done : Completion) : BusEvent :=
  .write Config.busAddr 0x00 [v.extractLsb' 0 8, v.extractLsb' 8 8] done

/-- `n` answers of the environment have been used. -/
def used (s : State) (n : Nat) : State := { s with answers := s.answers.drop n, drawn := s.drawn + n }

/-- The read-modify-write of SETTING by which `i` replaces the read word `r` with `f r` (R120, R122), single session:
every way it can end but for a transaction that never completes. -/
def SetterRuns (i : Instr) (f : Word → Word) (s : State) : Prop :=
  let r := settingWord s 0
  ((s.answer 0).completion = .ok → (s.answer 1).completion = .ok →
    exec i s = .next { used s 2 with
      response := some ⟨.ok, 0⟩, setting := f r, settling := settlingAfter s (f r),
      bus := s.bus ++ [readEvent 0x00 r, writeEvent (f r) .ok] }) ∧
  ((s.answer 0).completion = .ok → (s.answer 1).completion = .failed →
    exec i s = .next { used s 2 with
      response := some ⟨.busError, 0⟩,
      setting := if (s.answer 1).landed then f r else s.setting,
      settling := if (s.answer 1).landed then settlingAfter s (f r) else s.settling,
      bus := s.bus ++ [readEvent 0x00 r, writeEvent (f r) .failed] }) ∧
  ((s.answer 0).completion = .failed →
    exec i s = .next { used s 1 with
      response := some ⟨.busError, 0⟩, bus := s.bus ++ [lostRead 0x00 .failed] })

/-- One SETTING read by `i` whose response is `resp` of the word read (R121, R123), single session. -/
def GetterRuns (i : Instr) (resp : Word → Response) (s : State) : Prop :=
  ((s.answer 0).completion = .ok →
    exec i s = .next { used s 1 with
      response := some (resp (settingWord s 0)), bus := s.bus ++ [readEvent 0x00 (settingWord s 0)] }) ∧
  ((s.answer 0).completion = .failed →
    exec i s = .next { used s 1 with
      response := some ⟨.busError, 0⟩, bus := s.bus ++ [lostRead 0x00 .failed] })

/-- Nothing disturbs SETTING and its reads return what it stores: the single-session premise, and either the storage
reading of `SETTLE_READS` or a device that is powered on and settled (R20, R43, R165). -/
def Quiet (s : State) : Prop :=
  s.session = .single ∧ (s.settleReads = .storage ∨ s.setting.getLsbD 0 = false ∧ s.settling = false)

/-- The polynomial's numerator over 10^17, in the integers (R105). -/
def numerator (x : Nat) : Int :=
  60135 * (x : Int) ^ 4 - 93924 * 10 ^ 4 * (x : Int) ^ 3 + 81488 * 10 ^ 8 * (x : Int) ^ 2 + 10023 * 10 ^ 13 * (x : Int)

/-- The kinds of element a bus operation's sequence is made of (R127). -/
inductive Kind where
  | read (addr : Byte)
  | write (addr : Byte)
  | wait (ms : Nat)
  | probe
  deriving DecidableEq, Repr

/-- The kind of a bus event. -/
def kindOf : BusEvent → Kind
  | .read _ addr _ _ => .read addr
  | .write _ addr _ _ => .write addr
  | .wait ms => .wait ms
  | .probe _ _ => .probe

/-- How the event ended; a wait that is in the history returned (R150). -/
def endOf : BusEvent → Completion
  | .read _ _ _ done => done
  | .write _ _ _ done => done
  | .wait _ => .ok
  | .probe _ done => done

/-- The column "transactions on success" of R127's table. -/
def sequenceOf : Instr → List Kind
  | .setGain _ | .setIntegrationTime _ => [.read 0x00, .write 0x00]
  | .getGain | .getIntegrationTime => [.read 0x00]
  | .powerOn => [.read 0x00, .write 0x00, .wait 4]
  | .readLight => [.read 0x04, .read 0x00, .read 0x00]
  | .begin => [.read 0x00, .write 0x00, .wait 4, .probe]
  | _ => []

end Sys2Proof.Claims

open Sys2Proof.Claims

/-! ## Encoding and stepping -/

/-- R60, R61, R63, R69: decoding an encoded operation gives it back with every operand; a command that decodes to an
operation agrees with its encoding on the code and on every port the operation reads, and is that encoding when its
ignored ports are 0; and a command's meaning depends on nothing but the code and the ports the operation reads. -/
def Obligations.DecodeAndEncodeAgree : Prop :=
  (∀ i, decode (encode i) = .ok i) ∧
  (∀ w i, decode w = .ok i →
    w.sameOperands (encode i) = true ∧ (w.wellFormed = true → encode i = w)) ∧
  (∀ w v, w.sameOperands v = true → decode w = decode v)

/-- R63, with the operands of R61: each of the seventeen codes selects its operation, whatever the ports hold, and bits
4:3 of the code name the group. -/
def Obligations.EachCodeSelectsItsOperation : Prop :=
  ∀ (a : BitVec 32) (b c : BitVec 16) (sh : BitVec 4),
  let low := a.extractLsb' 0 16
  decode ⟨0b00000, a, b, c, sh⟩ = .ok (.encodeGain b) ∧
  decode ⟨0b00001, a, b, c, sh⟩ = .ok (.decodeGain low) ∧
  decode ⟨0b00010, a, b, c, sh⟩ = .ok (.encodeIntegrationTime c) ∧
  decode ⟨0b00011, a, b, c, sh⟩ = .ok (.decodeIntegrationTime low) ∧
  decode ⟨0b00100, a, b, c, sh⟩ = .ok (.setField low b c sh) ∧
  decode ⟨0b00101, a, b, c, sh⟩ = .ok (.powerOnWord low) ∧
  decode ⟨0b01000, a, b, c, sh⟩ = .ok (.selectConversionConstant b c) ∧
  decode ⟨0b01001, a, b, c, sh⟩ = .ok (.rawToLux low b c) ∧
  decode ⟨0b01010, a, b, c, sh⟩ = .ok (.compensate a) ∧
  decode ⟨0b01011, a, b, c, sh⟩ = .ok (.measure low b c) ∧
  decode ⟨0b10000, a, b, c, sh⟩ = .ok (.setGain b) ∧
  decode ⟨0b10001, a, b, c, sh⟩ = .ok .getGain ∧
  decode ⟨0b10010, a, b, c, sh⟩ = .ok (.setIntegrationTime c) ∧
  decode ⟨0b10011, a, b, c, sh⟩ = .ok .getIntegrationTime ∧
  decode ⟨0b10100, a, b, c, sh⟩ = .ok .powerOn ∧
  decode ⟨0b10101, a, b, c, sh⟩ = .ok .readLight ∧
  decode ⟨0b10110, a, b, c, sh⟩ = .ok .begin ∧
  (∀ (op : BitVec 5) i, decode ⟨op, a, b, c, sh⟩ = .ok i →
    (op.extractLsb' 3 2 = 0b00 ↔ i.group = .codec) ∧
    (op.extractLsb' 3 2 = 0b01 ↔ i.group = .luxEngine) ∧
    (op.extractLsb' 3 2 = 0b10 ↔ i.group = .bus))

/-- R64: the fifteen reserved codes select no operation, and they are the only ones that do not; presented to an idle
core, one gives ILLEGAL_OP with value 0 and changes nothing: no transaction, no register. -/
def Obligations.ReservedCodesAnswerIllegalOp : Prop :=
  ∀ (w : Command),
  ((∃ i, decode w = .ok i) ↔
    w.op ∉ ([0x06, 0x07, 0x0C, 0x0D, 0x0E, 0x0F, 0x17, 0x18, 0x19, 0x1A, 0x1B, 0x1C, 0x1D, 0x1E, 0x1F] :
      List (BitVec 5))) ∧
  ∀ (s : State) rest, s.Idle → s.commands = w :: rest → (∀ i, decode w ≠ .ok i) →
    step s = .next { s with commands := rest, response := some ⟨.illegalOp, 0⟩ }

/-- The link between a run and the meanings: a step takes the next command off the port and runs the operation it
decodes to; with no command presented nothing changes (R11, R66). -/
def Obligations.StepRunsTheDecodedOperation : Prop :=
  (∀ (s : State) w rest i, s.commands = w :: rest → decode w = .ok i →
    step s = exec i { s with commands := rest }) ∧
  (∀ s : State, s.commands = [] → step s = .next s)

/-- The interface to the table's numbering (log 3, a convention of the model's): the next step after `withFetchWord`
runs the instruction that `decodeTableWord` reads. -/
def Obligations.TableWordRunsNext : Prop :=
  ∀ (s : State) nbits w i, decodeTableWord nbits w = some i →
    step (s.withFetchWord nbits w) = exec i { s with commands := s.commands.tail }

/-- A step never faults (R144), and it is refused exactly when a command is presented to a busy core (R66, U11). That
`compensate` above 294568 is not refused either, as R105 and U3 suggest it be, is the model's choice (log 8). -/
def Obligations.StepsAreRefusedOnlyWhileBusy : Prop :=
  ∀ s : State,
  (SafeStep s ↔ ¬ (s.seq ≠ none ∧ s.commands ≠ [])) ∧
  (s.seq ≠ none → s.commands ≠ [] → step s = .refused .commandWhileBusy)

/-- R66, U11, D25: while an operation is in flight no operation runs, and with no command presented the core stays as
it is. -/
def Obligations.BusyCoreTakesNoCommand : Prop :=
  ∀ (s : State) q, s.seq = some q →
  (∀ i, exec i s = .refused .commandWhileBusy) ∧ (s.commands = [] → step s = .next s)

/-! ## Register Codec -/

/-- R80 for every gain value and every state of an idle core: the field bits of the four supported gains, REJECTED with
value 0 for every other value; the response is all that changes. -/
def Obligations.EncodeGainResult : Prop :=
  (∀ a b c sh, decode ⟨0x00, a, b, c, sh⟩ = .ok (.encodeGain b)) ∧
  ∀ (s : State) (b : GainQ), s.Idle →
  exec (.encodeGain b) s = .next (
    if b = 0x0008 then responded s .ok 0
    else if b = 0x0010 then responded s .ok 1
    else if b = 0x0001 then responded s .ok 2
    else if b = 0x0002 then responded s .ok 3
    else responded s .rejected 0)

/-- R81 for every 16-bit operand. -/
def Obligations.DecodeGainResult : Prop :=
  (∀ a b c sh, decode ⟨0x01, a, b, c, sh⟩ = .ok (.decodeGain (a.extractLsb' 0 16))) ∧
  ∀ (s : State) (a : Word), s.Idle →
  exec (.decodeGain a) s = .next (
    if a = 0 then responded s .ok 0x0008
    else if a = 1 then responded s .ok 0x0010
    else if a = 2 then responded s .ok 0x0001
    else if a = 3 then responded s .ok 0x0002
    else responded s .unknown 0x07F8)

/-- R82 for every millisecond count. -/
def Obligations.EncodeIntegrationTimeResult : Prop :=
  (∀ a b c sh, decode ⟨0x02, a, b, c, sh⟩ = .ok (.encodeIntegrationTime c)) ∧
  ∀ (s : State) (c : Millis), s.Idle →
  exec (.encodeIntegrationTime c) s = .next (
    if c = 100 then responded s .ok 0
    else if c = 200 then responded s .ok 1
    else if c = 400 then responded s .ok 2
    else if c = 800 then responded s .ok 3
    else if c = 50 then responded s .ok 8
    else if c = 25 then responded s .ok 12
    else responded s .rejected 0)

/-- R83 for every 16-bit operand. -/
def Obligations.DecodeIntegrationTimeResult : Prop :=
  (∀ a b c sh, decode ⟨0x03, a, b, c, sh⟩ = .ok (.decodeIntegrationTime (a.extractLsb' 0 16))) ∧
  ∀ (s : State) (a : Word), s.Idle →
  exec (.decodeIntegrationTime a) s = .next (
    if a = 0 then responded s .ok 100
    else if a = 1 then responded s .ok 200
    else if a = 2 then responded s .ok 400
    else if a = 3 then responded s .ok 800
    else if a = 8 then responded s .ok 50
    else if a = 12 then responded s .ok 25
    else responded s .unknown 0x00FF)

/-- R84, R167 bit by bit, for all operands: a bit of the result is the kept bit of the register value or the bit of
`bits` that the shift brings there; bits shifted past bit 15 are gone and nothing is masked to a field. -/
def Obligations.SetFieldResult : Prop :=
  (∀ a b c sh, decode ⟨0x04, a, b, c, sh⟩ = .ok (.setField (a.extractLsb' 0 16) b c sh)) ∧
  ∀ (s : State) (a b c : Word) (sh : BitVec 4), s.Idle → ∃ w : Word,
  exec (.setField a b c sh) s = .next (responded s .ok (w.setWidth 32)) ∧
  w = (a &&& b) ||| (c <<< sh.toNat) ∧
  ∀ k, k < 16 → w.getLsbD k =
    ((a.getLsbD k && b.getLsbD k) || (decide (sh.toNat ≤ k) && c.getLsbD (k - sh.toNat)))

/-- R85 for every word: bit 0 cleared, bits 15:1 as they were. -/
def Obligations.PowerOnWordResult : Prop :=
  (∀ a b c sh, decode ⟨0x05, a, b, c, sh⟩ = .ok (.powerOnWord (a.extractLsb' 0 16))) ∧
  ∀ (s : State) (a : Word), s.Idle → ∃ w : Word,
  exec (.powerOnWord a) s = .next (responded s .ok (w.setWidth 32)) ∧
  w = a &&& 0xFFFE ∧ w.getLsbD 0 = false ∧ ∀ k, 1 ≤ k → w.getLsbD k = a.getLsbD k

/-- R54: for every word, inserting field bits with a row's keep-mask and shift is the formula of the rule, and
extraction with the same row is the bit slice it names. -/
def Obligations.FieldInsertionAndExtraction : Prop :=
  ∀ r fb : Word,
  insertField r gainKeep fb gainShift = (r &&& 0xE7FF) ||| (fb <<< 11) ∧
  insertField r itKeep fb itShift = (r &&& 0xFC3F) ||| (fb <<< 6) ∧
  insertField r sdKeep fb sdShift = (r &&& 0xFFFE) ||| fb ∧
  gainField r = (r.extractLsb' 11 2).setWidth 16 ∧
  itField r = (r.extractLsb' 6 4).setWidth 16 ∧
  extractField r sdKeep sdShift = (r.extractLsb' 0 1).setWidth 16 ∧
  ~~~gainKeep = 0x1800 ∧ ~~~itKeep = 0x03C0 ∧ ~~~sdKeep = 0x0001

/-- R86, R87: the helper words for every register value, gain and time; a rejected value leaves the register value as
it was. -/
def Obligations.HelperWords : Prop :=
  ∀ (r : Word),
  (∀ g fb, (g, fb) ∈ gains → gainWord r g = (.ok, (r &&& 0xE7FF) ||| (fb <<< 11))) ∧
  (∀ g, Unsupported g → gainWord r g = (.rejected, r)) ∧
  (∀ t fb, (t, fb) ∈ times → integrationTimeWord r t = (.ok, (r &&& 0xFC3F) ||| (fb <<< 6))) ∧
  (∀ t, UnsupportedTime t → integrationTimeWord r t = (.rejected, r))

/-- R88: running an encode on a supported value and then a decode on its result gives the value back, and the other way
round on the field values that decode; the encode of an UNKNOWN decode is REJECTED. -/
def Obligations.RoundTripLaw : Prop :=
  ∀ s : State, s.Idle →
  (∀ g fb, (g, fb) ∈ gains → ∃ t, exec (.encodeGain g) s = .next t ∧ t.response = some ⟨.ok, fb.setWidth 32⟩ ∧
    exec (.decodeGain fb) t = .next (responded s .ok (g.setWidth 32))) ∧
  (∀ m fb, (m, fb) ∈ times → ∃ t, exec (.encodeIntegrationTime m) s = .next t ∧
    t.response = some ⟨.ok, fb.setWidth 32⟩ ∧
    exec (.decodeIntegrationTime fb) t = .next (responded s .ok (m.setWidth 32))) ∧
  (∀ fb : Word, ∃ q, exec (.decodeGain fb) s = .next (responded s (if fb.toNat < 4 then .ok else .unknown) q) ∧
    exec (.encodeGain (q.setWidth 16)) s =
      .next (if fb.toNat < 4 then responded s .ok (fb.setWidth 32) else responded s .rejected 0)) ∧
  (∀ fb : Word, ∃ q,
    exec (.decodeIntegrationTime fb) s =
      .next (responded s (if fb ∈ ([0, 1, 2, 3, 8, 12] : List Word) then .ok else .unknown) q) ∧
    exec (.encodeIntegrationTime (q.setWidth 16)) s =
      .next (if fb ∈ ([0, 1, 2, 3, 8, 12] : List Word) then responded s .ok (fb.setWidth 32)
        else responded s .rejected 0))

/-- R89: for every word and every supported value, writing one field leaves all bits outside it alone and the field
then holds the encoded value; a bare `set_field` with oversized bits does not have this property. -/
def Obligations.FieldIsolationLaw : Prop :=
  (∀ (r : Word) g fb, (g, fb) ∈ gains →
    (gainWord r g).2 &&& 0xE7FF = r &&& 0xE7FF ∧ ((gainWord r g).2.extractLsb' 11 2).setWidth 16 = fb) ∧
  (∀ (r : Word) t fb, (t, fb) ∈ times →
    (integrationTimeWord r t).2 &&& 0xFC3F = r &&& 0xFC3F ∧
    ((integrationTimeWord r t).2.extractLsb' 6 4).setWidth 16 = fb) ∧
  (∀ r : Word, powerOnWord r &&& 0xFFFE = r &&& 0xFFFE ∧ (powerOnWord r).getLsbD 0 = false) ∧
  (∃ r bits : Word, setField r 0xE7FF bits 11 &&& 0xE7FF ≠ r &&& 0xE7FF)

/-! ## Lux Engine -/

/-- R102, R57, R58: for every supported gain and time the cell at the gain's column and the time's row; UNKNOWN with
image 255 when either is not supported. -/
def Obligations.SelectConversionConstantResult : Prop :=
  (∀ a b c sh, decode ⟨0x08, a, b, c, sh⟩ = .ok (.selectConversionConstant b c)) ∧
  ∀ (s : State), s.Idle →
  (∀ g col t row, (g, col) ∈ columns → (t, row) ∈ rows →
    exec (.selectConversionConstant g t) s = .next (responded s .ok ((convTable row col).setWidth 32))) ∧
  (∀ g t, Unsupported g ∨ UnsupportedTime t →
    exec (.selectConversionConstant g t) s = .next (responded s .unknown 0x00FF))

/-- R101: what the three cells the source fixes give at `select_conversion_constant` and, for every raw sample, at
`raw_to_lux`; the reference instance agrees with them and is the general-knowledge table everywhere else. -/
def Obligations.PinnedCellResults : Prop :=
  (∀ (s : State) (raw : Word), s.Idle →
    exec (.selectConversionConstant 0x0010 800) s = .next (responded s .ok 36) ∧
    exec (.selectConversionConstant 0x0008 100) s = .next (responded s .ok 288) ∧
    exec (.selectConversionConstant 0x0001 25) s = .next (responded s .ok 18432) ∧
    exec (.rawToLux raw 0x0010 800) s = .next (responded s .ok (BitVec.ofNat 32 (raw.toNat * 36 / 10000))) ∧
    exec (.rawToLux raw 0x0008 100) s = .next (responded s .ok (BitVec.ofNat 32 (raw.toNat * 288 / 10000))) ∧
    exec (.rawToLux raw 0x0001 25) s = .next (responded s .ok (BitVec.ofNat 32 (raw.toNat * 18432 / 10000)))) ∧
  convTableRef 0 0 = convTable 0 0 ∧ convTableRef 3 1 = convTable 3 1 ∧ convTableRef 5 3 = convTable 5 3 ∧
  (∀ row col, (convTableGK row col).toNat = 36 * 2 ^ row.val * (if col = 0 then 1 else if col = 1 then 2
    else if col = 2 then 8 else 16)) ∧
  (∀ row col, ¬ (row = 3 ∧ col = 1) → convTableRef row col = convTableGK row col)

/-- R103: for every raw sample the product with the selected constant, divided by 10000 and truncated; UNKNOWN with
image 255 when the lookup fails. -/
def Obligations.RawToLuxResult : Prop :=
  (∀ a b c sh, decode ⟨0x09, a, b, c, sh⟩ = .ok (.rawToLux (a.extractLsb' 0 16) b c)) ∧
  ∀ (s : State), s.Idle →
  (∀ (raw : Word) g col t row, (g, col) ∈ columns → (t, row) ∈ rows → ∃ lux : Lux,
    exec (.rawToLux raw g t) s = .next (responded s .ok lux) ∧
    10000 * lux.toNat ≤ raw.toNat * (convTable row col).toNat ∧
    raw.toNat * (convTable row col).toNat < 10000 * (lux.toNat + 1)) ∧
  (∀ raw g t, Unsupported g ∨ UnsupportedTime t →
    exec (.rawToLux raw g t) s = .next (responded s .unknown 0x000000FF))

/-- R104: for a fixed gain and time the lux of `raw_to_lux` does not decrease in the raw sample; it may stay the same. -/
def Obligations.RawToLuxMonotone : Prop :=
  ∀ (s : State) (g : GainQ) (t : Millis) (raw raw' : Word) (lux lux' : Lux), s.Idle → raw.toNat ≤ raw'.toNat →
  exec (.rawToLux raw g t) s = .next (responded s .ok lux) →
  exec (.rawToLux raw' g t) s = .next (responded s .ok lux') → lux.toNat ≤ lux'.toNat

/-- R105, of the polynomial the model computes with: its two parts `polyPos` and `polyNeg` differ by the rule's
numerator, the difference is never negative and strictly increasing for every non-negative input, so its floor
`compensated` does not decrease; and neither does the result of `compensate` in its range. -/
def Obligations.PolynomialIsPositiveAndIncreasing : Prop :=
  (∀ x, (polyPos x : Int) - polyNeg x = numerator x) ∧
  (∀ x, polyNeg x ≤ polyPos x) ∧
  (∀ x y, x < y → polyPos x - polyNeg x < polyPos y - polyNeg y) ∧
  (∀ x y, x ≤ y → compensated x ≤ compensated y) ∧
  (∀ (s : State) (x y p q : Lux), s.Idle → x.toNat ≤ y.toNat → y.toNat ≤ 294568 →
    exec (.compensate x) s = .next (responded s .ok p) → exec (.compensate y) s = .next (responded s .ok q) →
    p.toNat ≤ q.toNat)

/-- R105, every input up to 294568: the floor of the polynomial's exact value, with status OK and nothing else changed.
This is the whole range in which the spec gives a result. -/
def Obligations.CompensateResult : Prop :=
  (∀ a b c sh, decode ⟨0x0A, a, b, c, sh⟩ = .ok (.compensate a)) ∧
  ∀ (s : State) (x : Lux), s.Idle → x.toNat ≤ 294568 → ∃ q : Lux,
  exec (.compensate x) s = .next (responded s .ok q) ∧
  (q.toNat : Int) * 10 ^ 17 ≤ numerator x.toNat ∧ numerator x.toNat < ((q.toNat : Int) + 1) * 10 ^ 17

/-- The model's choice above x = 294568, where R105 and U3 leave the result unspecified (log 8): the exact value does not
fit 32 bits, and the operation runs with a free result, a function of the operand, and status OK. -/
def Obligations.CompensateRunsBeyondItsRange : Prop :=
  ∀ (s : State) (x : Lux), s.Idle → 294568 < x.toNat →
  2 ^ 32 * 10 ^ 17 ≤ numerator x.toNat ∧
  exec (.compensate x) s = .next (responded s .ok (Config.compensateBeyondPort x))

/-- R106: `measure` gives what `raw_to_lux` gives when that is UNKNOWN or at most 1000, and what `compensate` gives for
it above 1000, for every operand. -/
def Obligations.MeasureResult : Prop :=
  (∀ a b c sh, decode ⟨0x0B, a, b, c, sh⟩ = .ok (.measure (a.extractLsb' 0 16) b c)) ∧
  ∀ (s : State) (raw : Word) (g : GainQ) (t : Millis), s.Idle →
  (Unsupported g ∨ UnsupportedTime t → exec (.measure raw g t) s = .next (responded s .unknown 0x000000FF)) ∧
  (¬ (Unsupported g ∨ UnsupportedTime t) → ∃ lux : Lux,
    exec (.rawToLux raw g t) s = .next (responded s .ok lux) ∧
    (lux.toNat ≤ 1000 → exec (.measure raw g t) s = .next (responded s .ok lux)) ∧
    (1000 < lux.toNat → exec (.measure raw g t) s = exec (.compensate lux) s))

/-- R106, corner cases: with a table whose cells are at most 44948, no raw sample, gain and time give a result from
1001 to 1075. -/
def Obligations.NoResultBetweenThresholdAndJump : Prop :=
  ∀ (table : Fin 6 → Fin 4 → Word), (∀ row col, (table row col).toNat ≤ 44948) →
  ∀ (raw : Word) (g : GainQ) (t : Millis), (measureResponse table raw g t).q.toNat ≤ 1000 ∨
    1076 ≤ (measureResponse table raw g t).q.toNat

/-- R107: the ranges of the engine's results, for every table with the stated bound on its cells. -/
def Obligations.EngineRanges : Prop :=
  (∀ row col, (convTableRef row col).toNat ≤ 18432 ∧ (convTableGK row col).toNat ≤ 18432) ∧
  (∀ (table : Fin 6 → Fin 4 → Word), (∀ row col, (table row col).toNat ≤ 18432) →
    ∀ (raw : Word) (g : GainQ) (t : Millis),
    (∀ lux, rawToLux table raw g t = some lux → lux.toNat ≤ 120794) ∧
    (measureResponse table raw g t).q.toNat ≤ 112784830) ∧
  (compensate 120794).toNat = 112784830 ∧ 112784830 < 2 ^ 27 ∧
  (∀ (table : Fin 6 → Fin 4 → Word) (raw : Word) (g : GainQ) (t : Millis) (lux : Lux),
    rawToLux table raw g t = some lux → lux.toNat ≤ 429483) ∧
  (∀ (table : Fin 6 → Fin 4 → Word), (∀ row col, (table row col).toNat ≤ 44948) →
    ∀ (raw : Word) (g : GainQ) (t : Millis) (lux : Lux),
    rawToLux table raw g t = some lux → lux.toNat ≤ 294568) ∧
  294568 < 65535 * 44949 / 10000

/-- R108: an unsupported gain or time is UNKNOWN with image 255 at the lookup, at `raw_to_lux` and at `measure`; and
`read_light` that reads unrecognised time bits responds UNKNOWN with image 255. -/
def Obligations.UnknownPropagates : Prop :=
  ∀ (s : State), s.Idle →
  (∀ (raw : Word) (g : GainQ) (t : Millis), Unsupported g ∨ UnsupportedTime t →
    exec (.selectConversionConstant g t) s = .next (responded s .unknown 0xFF) ∧
    exec (.rawToLux raw g t) s = .next (responded s .unknown 0xFF) ∧
    exec (.measure raw g t) s = .next (responded s .unknown 0xFF)) ∧
  (s.session = .single → (∀ k, k < 3 → (s.answer k).completion = .ok) →
    (settingWord s 2).extractLsb' 6 4 ∉ ([0, 1, 2, 3, 8, 12] : List (BitVec 4)) →
    ∃ t, exec .readLight s = .next t ∧ t.response = some ⟨.unknown, 0xFF⟩)

/-- R168: what an UNKNOWN image fed onward gives. -/
def Obligations.SentinelFedOnward : Prop :=
  ∀ (s : State) (raw : Word) (g : GainQ) (t : Millis), s.Idle →
  exec (.encodeGain 0x07F8) s = .next (responded s .rejected 0) ∧
  exec (.encodeIntegrationTime 255) s = .next (responded s .rejected 0) ∧
  exec (.selectConversionConstant 0x07F8 t) s = .next (responded s .unknown 0xFF) ∧
  exec (.selectConversionConstant g 255) s = .next (responded s .unknown 0xFF) ∧
  exec (.rawToLux raw 0x07F8 t) s = .next (responded s .unknown 0xFF) ∧
  exec (.rawToLux raw g 255) s = .next (responded s .unknown 0xFF) ∧
  exec (.measure raw 0x07F8 t) s = .next (responded s .unknown 0xFF) ∧
  exec (.measure raw g 255) s = .next (responded s .unknown 0xFF) ∧
  exec (.compensate 255) s = .next (responded s .ok 260)

/-- R10, R13, R66: each of the ten pure operations completes on every idle core with a response that depends on its
operands alone, and changes nothing else. That `compensate` above 294568 completes, with a response that its operand
determines, where R105 and U3 suggest a refusal, is the model's choice (log 8), and so it is of `measure` where a table
cell above 44948 leads there. -/
def Obligations.PureOperationsDependOnOperandsAlone : Prop :=
  ∀ i : Instr, i.group ≠ .bus → ∃ r : Response, ∀ s : State, s.Idle → exec i s = .next { s with response := some r }

/-! ## Bus operations -/

/-- R120, every gain and every outcome of its transactions (single session): an unsupported gain is REJECTED with no
transaction; otherwise one read of SETTING, the GAIN field replaced, one write. -/
def Obligations.SetGainResult : Prop :=
  (∀ a b c sh, decode ⟨0x10, a, b, c, sh⟩ = .ok (.setGain b)) ∧
  ∀ s : State, s.Idle →
  (∀ g, Unsupported g → exec (.setGain g) s = .next (responded s .rejected 0)) ∧
  (s.session = .single → ∀ g fb, (g, fb) ∈ gains →
    SetterRuns (.setGain g) (fun r => (r &&& 0xE7FF) ||| (fb <<< 11)) s)

/-- R121 (single session): one read of SETTING and the gain of its bits 12:11; BUS_ERROR if the read fails. -/
def Obligations.GetGainResult : Prop :=
  (∀ a b c sh, decode ⟨0x11, a, b, c, sh⟩ = .ok .getGain) ∧
  ∀ s : State, s.Idle → s.session = .single →
  GetterRuns .getGain (fun r =>
    if r.extractLsb' 11 2 = 0 then ⟨.ok, 0x0008⟩
    else if r.extractLsb' 11 2 = 1 then ⟨.ok, 0x0010⟩
    else if r.extractLsb' 11 2 = 2 then ⟨.ok, 0x0001⟩
    else ⟨.ok, 0x0002⟩) s

/-- R122, every time and every outcome of its transactions (single session). -/
def Obligations.SetIntegrationTimeResult : Prop :=
  (∀ a b c sh, decode ⟨0x12, a, b, c, sh⟩ = .ok (.setIntegrationTime c)) ∧
  ∀ s : State, s.Idle →
  (∀ t, UnsupportedTime t → exec (.setIntegrationTime t) s = .next (responded s .rejected 0)) ∧
  (s.session = .single → ∀ t fb, (t, fb) ∈ times →
    SetterRuns (.setIntegrationTime t) (fun r => (r &&& 0xFC3F) ||| (fb <<< 6)) s)

/-- R123 (single session): one read of SETTING and the time of its bits 9:6, UNKNOWN with image 255 for the ten
unrecognised values; BUS_ERROR if the read fails. -/
def Obligations.GetIntegrationTimeResult : Prop :=
  (∀ a b c sh, decode ⟨0x13, a, b, c, sh⟩ = .ok .getIntegrationTime) ∧
  ∀ s : State, s.Idle → s.session = .single →
  GetterRuns .getIntegrationTime (fun r =>
    if r.extractLsb' 6 4 = 0 then ⟨.ok, 100⟩
    else if r.extractLsb' 6 4 = 1 then ⟨.ok, 200⟩
    else if r.extractLsb' 6 4 = 2 then ⟨.ok, 400⟩
    else if r.extractLsb' 6 4 = 3 then ⟨.ok, 800⟩
    else if r.extractLsb' 6 4 = 8 then ⟨.ok, 50⟩
    else if r.extractLsb' 6 4 = 12 then ⟨.ok, 25⟩
    else ⟨.unknown, 0x00FF⟩) s

/-- R124 (single session): read SETTING, write it with bit 0 cleared even if it was clear, wait 4 ms, which ends the
settling interval; after a failed transaction BUS_ERROR, no further transaction and no wait. -/
def Obligations.PowerOnResult : Prop :=
  (∀ a b c sh, decode ⟨0x14, a, b, c, sh⟩ = .ok .powerOn) ∧
  ∀ s : State, s.Idle → s.session = .single →
  let r := settingWord s 0
  let w := r &&& 0xFFFE
  ((s.answer 0).completion = .ok → (s.answer 1).completion = .ok →
    exec .powerOn s = .next { used s 2 with
      response := some ⟨.ok, 0⟩, setting := w, settling := false,
      bus := s.bus ++ [readEvent 0x00 r, writeEvent w .ok, .wait 4] }) ∧
  ((s.answer 0).completion = .ok → (s.answer 1).completion = .failed →
    exec .powerOn s = .next { used s 2 with
      response := some ⟨.busError, 0⟩,
      setting := if (s.answer 1).landed then w else s.setting,
      settling := if (s.answer 1).landed then settlingAfter s w else s.settling,
      bus := s.bus ++ [readEvent 0x00 r, writeEvent w .failed] }) ∧
  ((s.answer 0).completion = .failed →
    exec .powerOn s = .next { used s 1 with
      response := some ⟨.busError, 0⟩, bus := s.bus ++ [lostRead 0x00 .failed] })

/-- R125 (single session): the sample, then SETTING twice; the response is that of `measure` on the sample, the gain of
the first word's bits 12:11 and the time of the second word's bits 9:6, 255 if they are unrecognised; BUS_ERROR and no
further read at the first failure. Of the device's registers only AMBIENT_LIGHT_DATA changes: that it then holds the
sample read, and that no other register changes by itself, is the model's choice (log 17), not the spec's; and so is the
free response where a table cell above 44948 takes `measure` beyond the range of `compensate` (log 8). -/
def Obligations.ReadLightResult : Prop :=
  (∀ a b c sh, decode ⟨0x15, a, b, c, sh⟩ = .ok .readLight) ∧
  ∀ s : State, s.Idle → s.session = .single →
  let raw := (s.answer 0).draw
  let r1 := settingWord s 1
  let r2 := settingWord s 2
  ((s.answer 0).completion = .ok → (s.answer 1).completion = .ok → (s.answer 2).completion = .ok →
    ∀ g t, (g, (r1.extractLsb' 11 2).setWidth 16) ∈ gains →
    ((t, (r2.extractLsb' 6 4).setWidth 16) ∈ times ∨
      t = 255 ∧ r2.extractLsb' 6 4 ∉ ([0, 1, 2, 3, 8, 12] : List (BitVec 4))) →
    ∃ m : Response, exec (.measure raw g t) s = .next { s with response := some m } ∧
    exec .readLight s = .next { used s 3 with
      response := some m, ambientLight := raw,
      bus := s.bus ++ [readEvent 0x04 raw, readEvent 0x00 r1, readEvent 0x00 r2] }) ∧
  ((s.answer 0).completion = .ok → (s.answer 1).completion = .ok → (s.answer 2).completion = .failed →
    exec .readLight s = .next { used s 3 with
      response := some ⟨.busError, 0⟩, ambientLight := raw,
      bus := s.bus ++ [readEvent 0x04 raw, readEvent 0x00 r1, lostRead 0x00 .failed] }) ∧
  ((s.answer 0).completion = .ok → (s.answer 1).completion = .failed →
    exec .readLight s = .next { used s 2 with
      response := some ⟨.busError, 0⟩, ambientLight := raw,
      bus := s.bus ++ [readEvent 0x04 raw, lostRead 0x00 .failed] }) ∧
  ((s.answer 0).completion = .failed →
    exec .readLight s = .next { used s 1 with
      response := some ⟨.busError, 0⟩, bus := s.bus ++ [lostRead 0x04 .failed] })

/-- R126 (single session): the power-on sequence, then the probe; result 1 only if both transactions went through and
the device is present, otherwise 0, always with status OK; the sequence stops at the first failure. -/
def Obligations.BeginResult : Prop :=
  (∀ a b c sh, decode ⟨0x16, a, b, c, sh⟩ = .ok .begin) ∧
  ∀ s : State, s.Idle → s.session = .single →
  let r := settingWord s 0
  let w := r &&& 0xFFFE
  ((s.answer 0).completion = .ok → (s.answer 1).completion = .ok → (s.answer 2).completion ≠ .never →
    exec .begin s = .next { used s 3 with
      response := some ⟨.ok, if (s.answer 2).completion = .ok then 1 else 0⟩, setting := w, settling := false,
      bus := s.bus ++ [readEvent 0x00 r, writeEvent w .ok, .wait 4,
        .probe Config.busAddr (s.answer 2).completion] }) ∧
  ((s.answer 0).completion = .ok → (s.answer 1).completion = .failed →
    exec .begin s = .next { used s 2 with
      response := some ⟨.ok, 0⟩,
      setting := if (s.answer 1).landed then w else s.setting,
      settling := if (s.answer 1).landed then settlingAfter s w else s.settling,
      bus := s.bus ++ [readEvent 0x00 r, writeEvent w .failed] }) ∧
  ((s.answer 0).completion = .failed →
    exec .begin s = .next { used s 1 with
      response := some ⟨.ok, 0⟩, bus := s.bus ++ [lostRead 0x00 .failed] })

/-- R38 (and R34, R59): `RegRead16` gives `{b1, b0}` of the two bytes that `MemRead` delivers, b1 × 256 + b0, and no
value when the transaction does not go through; the bytes of a written register are its low and its high half. -/
def Obligations.RegisterBytesOnTheWire : Prop :=
  (∀ (r : ReadReg) (s : State) b0 b1 t, memRead r s = .ok (b0, b1) t →
    ∃ v : Word, regRead16 r s = .ok v (t.advance [v]) ∧ v.toNat = b1.toNat * 256 + b0.toNat) ∧
  (∀ (r : ReadReg) (s t : State), memRead r s = .failed t → regRead16 r s = .failed t) ∧
  (∀ v : Word, v.toNat = (msByte v).toNat * 256 + (lsByte v).toNat) ∧
  wordOfBytes 0xC1 0x1A = 0x1AC1

/-- R143: after a transaction that never completes a bus operation gives no response and the core stays busy with it,
holding its position and the values read so far; for every place in every bus operation's sequence. -/
def Obligations.UnfinishedTransactionLeavesCoreBusy : Prop :=
  ∀ (s : State), s.Idle → s.session = .single →
  (∀ i, i.group = .bus → (∀ g, i = .setGain g → ¬ Unsupported g) →
    (∀ t, i = .setIntegrationTime t → ¬ UnsupportedTime t) → (s.answer 0).completion = .never →
    ∃ t, exec i s = .next t ∧ t.seq = some ⟨i, 0, []⟩ ∧ t.response = none ∧ t.setting = s.setting) ∧
  ((s.answer 0).completion = .ok → (s.answer 1).completion = .never →
    (∀ i ∈ [Instr.powerOn, Instr.begin], ∃ t, exec i s = .next t ∧
      t.seq = some ⟨i, 1, [settingWord s 0]⟩ ∧ t.response = none) ∧
    (∀ g fb, (g, fb) ∈ gains → ∃ t, exec (.setGain g) s = .next t ∧
      t.seq = some ⟨.setGain g, 1, [settingWord s 0]⟩ ∧ t.response = none) ∧
    (∀ m fb, (m, fb) ∈ times → ∃ t, exec (.setIntegrationTime m) s = .next t ∧
      t.seq = some ⟨.setIntegrationTime m, 1, [settingWord s 0]⟩ ∧ t.response = none) ∧
    (∃ t, exec .readLight s = .next t ∧
      t.seq = some ⟨.readLight, 1, [(s.answer 0).draw]⟩ ∧ t.response = none)) ∧
  ((s.answer 0).completion = .ok → (s.answer 1).completion = .ok → (s.answer 2).completion = .never →
    (∃ t, exec .readLight s = .next t ∧
      t.seq = some ⟨.readLight, 2, [(s.answer 0).draw, settingWord s 1]⟩ ∧ t.response = none) ∧
    (∃ t, exec .begin s = .next t ∧ t.seq = some ⟨.begin, 3, [settingWord s 0]⟩ ∧ t.response = none))

/-! ## Rules over all operations -/

/-- R127: for every operation, session and outcome, the core's bus activity is an initial part of the operation's row in
R127's table, in order; everything before its last element went through; an activity shorter than the row ended because
its last transaction did not go through, or is empty because the operation was REJECTED; a REJECTED operation has none;
and `begin` that stops short responds, if it responds, with result 0. -/
def Obligations.BusActivityFollowsTheTable : Prop :=
  ∀ (i : Instr) (s t : State), s.Idle → exec i s = .next t →
  ∃ es : List BusEvent, t.bus = s.bus ++ es ∧ es.map kindOf <+: sequenceOf i ∧
  (∀ e ∈ es.dropLast, endOf e = .ok) ∧
  (es.length < (sequenceOf i).length →
    (es = [] ∧ t.response = some ⟨.rejected, 0⟩) ∨ ∃ e, es.getLast? = some e ∧ endOf e ≠ .ok) ∧
  (t.response = some ⟨.rejected, 0⟩ → es = []) ∧
  (i = .begin → es.length < 4 → t.response = some ⟨.ok, 0⟩ ∨ t.response = none)

/-- R143: a transaction that does not go through is the operation's last. An operation other than `begin` responds
BUS_ERROR with value 0 exactly when it failed; `begin` then responds OK with result 0; and an operation gives no response,
and the core stays busy, exactly when it never completed. -/
def Obligations.FailedTransactionIsReported : Prop :=
  ∀ (i : Instr) (s t : State) es, s.Idle → exec i s = .next t → t.bus = s.bus ++ es →
  (∀ e ∈ es.dropLast, endOf e = .ok) ∧
  (t.response = none ↔ ∃ e, es.getLast? = some e ∧ endOf e = .never) ∧
  (t.response = none ↔ t.seq ≠ none) ∧
  (i ≠ .begin → (t.response = some ⟨.busError, 0⟩ ↔ ∃ e, es.getLast? = some e ∧ endOf e = .failed)) ∧
  (i = .begin → (t.response = some ⟨.ok, 0⟩ ↔ ∃ e, es.getLast? = some e ∧ endOf e = .failed)) ∧
  (∀ r, t.response = some r → r.st = .busError → r.q = 0)

/-- The frame of every operation, in every session and for every outcome (R19, R127): it completes or hangs, but always
answers a next state; the caller's commands and the launch premises stay; every device register reads as before but
SETTING and, for `read_light`, AMBIENT_LIGHT_DATA; and SETTING too stays under the single-session premise unless the
operation is a setter, `power_on` or `begin`. That the core writes no other register is R127's. That no other register
changes while an operation runs is the model's choice: the device's own changes are left out (log 17), and another
master writes SETTING only (log 19). That every operation answers a next state is the model's choice for `compensate`
above 294568, where R105 and U3 suggest a refusal, and for what leads there (log 8). -/
def Obligations.OperationFrame : Prop :=
  ∀ (i : Instr) (s : State), s.Idle → ∃ t, exec i s = .next t ∧
  t.commands = s.commands ∧ t.settleReads = s.settleReads ∧ t.session = s.session ∧
  (∀ addr : Byte, addr ≠ 0x00 → (addr = 0x04 → i ≠ .readLight) → t.register addr = s.register addr) ∧
  (s.session = .single →
    i ∉ [Instr.powerOn, Instr.begin] → (∀ g, i ≠ .setGain g) → (∀ m, i ≠ .setIntegrationTime m) →
    t.register 0x00 = s.register 0x00 ∧ t.settling = s.settling)

/-- R17, R18 over every step, whatever fails: while nothing disturbs SETTING, a step changes its GAIN field only by
`set_gain`, its IT field only by `set_integration_time`, its SD bit only by `power_on` or `begin`, which can only clear
it, and its reserved bits 15:13, 10 and 5:1 not at all; and nothing disturbs SETTING afterwards either, so that the
statement holds along a run. -/
def Obligations.StepsKeepSettingFieldsApart : Prop :=
  ∀ (s t : State), Quiet s → step s = .next t →
  Quiet t ∧
  t.setting &&& 0xE43E = s.setting &&& 0xE43E ∧
  (t.setting.getLsbD 0 = true → s.setting.getLsbD 0 = true) ∧
  (∀ w rest i, s.commands = w :: rest → decode w = .ok i →
    ((∀ g, i ≠ .setGain g) → t.setting &&& 0x1800 = s.setting &&& 0x1800) ∧
    ((∀ m, i ≠ .setIntegrationTime m) → t.setting &&& 0x03C0 = s.setting &&& 0x03C0) ∧
    (i ≠ .powerOn → i ≠ .begin → t.setting.getLsbD 0 = s.setting.getLsbD 0))

/-- R53, R65: while nothing disturbs SETTING, a recognised IT field stays recognised: no operation writes one of the ten
unrecognised values; and nothing disturbs SETTING afterwards either. -/
def Obligations.RecognisedTimeStaysRecognised : Prop :=
  ∀ (s t : State), Quiet s → step s = .next t →
  s.setting.extractLsb' 6 4 ∈ ([0, 1, 2, 3, 8, 12] : List (BitVec 4)) →
  Quiet t ∧ t.setting.extractLsb' 6 4 ∈ ([0, 1, 2, 3, 8, 12] : List (BitVec 4))

/-- R166 (the lost update): in a shared session, whatever another master writes to SETTING after the read and before the
write of `set_gain`, `set_integration_time` or `power_on`, the core's write leaves the word it computed from its own
earlier read, and the other master's change is gone; and `read_light` takes its gain from the word it finds at its first
SETTING read and its time from the word it finds at its second, which another master may have written in between: UNKNOWN
if that word's bits 9:6 are unrecognised (R125, R108). A write of another master before the first transaction is what that
one reads. When a foreign write lands, and that it is of SETTING only, is the model's choice (log 19), and so it is that
`measure` completes, with a free response, where a table cell above 44948 takes it beyond the range of `compensate`
(log 8), where R105 and U3 suggest a refusal. -/
def Obligations.InterleavedWriteIsLost : Prop :=
  ∀ s : State, s.Idle → s.session = .shared → s.settleReads = .storage →
  (s.answer 0).completion = .ok → (s.answer 1).completion = .ok →
  let r := (s.answer 0).foreign.getD s.setting
  let r1 := (s.answer 1).foreign.getD r
  let r2 := (s.answer 2).foreign.getD r1
  (∀ g fb, (g, fb) ∈ gains → ∃ t, exec (.setGain g) s = .next t ∧ t.response = some ⟨.ok, 0⟩ ∧
    t.setting = (r &&& 0xE7FF) ||| (fb <<< 11)) ∧
  (∀ m fb, (m, fb) ∈ times → ∃ t, exec (.setIntegrationTime m) s = .next t ∧ t.response = some ⟨.ok, 0⟩ ∧
    t.setting = (r &&& 0xFC3F) ||| (fb <<< 6)) ∧
  (∃ t, exec .powerOn s = .next t ∧ t.response = some ⟨.ok, 0⟩ ∧ t.setting = r &&& 0xFFFE) ∧
  ((s.answer 2).completion = .ok →
    (∀ g m, (g, (r1.extractLsb' 11 2).setWidth 16) ∈ gains → (m, (r2.extractLsb' 6 4).setWidth 16) ∈ times →
      ∃ t u, exec .readLight s = .next t ∧ exec (.measure (s.answer 0).draw g m) s = .next u ∧
        t.response = u.response ∧ t.setting = r2) ∧
    (r2.extractLsb' 6 4 ∉ ([0, 1, 2, 3, 8, 12] : List (BitVec 4)) →
      ∃ t, exec .readLight s = .next t ∧ t.response = some ⟨.unknown, 0xFF⟩ ∧ t.setting = r2))

/-- R165, R162: after `power_on` that responds OK, or `begin` that responds with success, the device is powered on and
settled (single session); so an idle core that cleared SD through these operations reads SETTING as it is stored, under
either value of `SETTLE_READS`. -/
def Obligations.PowerOnSettlesTheDevice : Prop :=
  ∀ (s t : State), s.Idle → s.session = .single →
  ((exec .powerOn s = .next t ∧ t.response = some ⟨.ok, 0⟩) ∨
    (exec .begin s = .next t ∧ t.response = some ⟨.ok, 1⟩)) →
  t.setting.getLsbD 0 = false ∧ t.settling = false ∧ ∀ k, settingWord t k = t.setting

/-- R160, R161: reset of the block, applied when idle, leaves the core idle with no response pending and the device, the
caller and the environment as they are; while an operation is in flight it is refused; and `State.reset` is idle with no
response pending. -/
def Obligations.ResetLeavesIdleCoreAndDevice : Prop :=
  State.reset.Idle ∧ State.reset.response = none ∧
  (∀ s : State, s.Idle → resetCore s = .next { s with response := none }) ∧
  (∀ (s : State) q, s.seq = some q → resetCore s = .refused .resetWhileBusy)

/-- The invariant `State.Inv` (R62, R66, R127) is kept by every step from every state that has it. -/
def Obligations.StepKeepsTheInvariant : Prop :=
  ∀ s t : State, s.Inv → step s = .next t → t.Inv

/-- The machine right after reset has the invariant. -/
def Obligations.ResetMeetsTheInvariant : Prop :=
  State.reset.Inv

/-- R62: the codes of the five statuses; no status has code 5, 6 or 7. -/
def Obligations.StatusCodes : Prop :=
  Status.code .ok = 0 ∧ Status.code .rejected = 1 ∧ Status.code .unknown = 2 ∧ Status.code .busError = 3 ∧
  Status.code .illegalOp = 4 ∧ ∀ st : Status, (Status.code st).toNat ≤ 4

/-- R126 in a shared session, R166: whatever another master writes to SETTING before any transaction of `begin`, the core
writes back the word it read with bit 0 cleared, so a write of the other master in between is lost; what it writes before
the probe stays; and the response is the one of R126 for every outcome but a transaction that never completes. When a
foreign write lands, and that it is of SETTING only, is the model's choice (log 19). -/
def Obligations.BeginResultInSharedSession : Prop :=
  ∀ s : State, s.Idle → s.session = .shared → s.settleReads = .storage →
  let r := (s.answer 0).foreign.getD s.setting
  let w := r &&& 0xFFFE
  ((s.answer 0).completion = .ok → (s.answer 1).completion = .ok → (s.answer 2).completion ≠ .never →
    ∃ t, exec .begin s = .next t ∧ t.response = some ⟨.ok, if (s.answer 2).completion = .ok then 1 else 0⟩ ∧
      t.setting = (s.answer 2).foreign.getD w ∧
      t.bus = s.bus ++ [readEvent 0x00 r, writeEvent w .ok, .wait 4, .probe Config.busAddr (s.answer 2).completion]) ∧
  ((s.answer 0).completion = .ok → (s.answer 1).completion = .failed →
    ∃ t, exec .begin s = .next t ∧ t.response = some ⟨.ok, 0⟩ ∧
      t.setting = (if (s.answer 1).landed then w else (s.answer 1).foreign.getD r) ∧
      t.bus = s.bus ++ [readEvent 0x00 r, writeEvent w .failed]) ∧
  ((s.answer 0).completion = .failed →
    ∃ t, exec .begin s = .next t ∧ t.response = some ⟨.ok, 0⟩ ∧ t.setting = r ∧
      t.bus = s.bus ++ [lostRead 0x00 .failed])
end

