-- ==== Sys2Proof/Laws/Operands.lean ====
section
/-! SUPPORT. The laws of the data encodings: the maps between the numberings of a gain and of an integration time, and
the byte order. -/

namespace Sys2Proof.Machine

@[simp] theorem Gain.ofQ_toQ (x : Gain) : Gain.ofQ x.toQ = some x := by
  cases x <;> decide

@[simp] theorem Gain.ofBits_bits (x : Gain) : Gain.ofBits x.bits = some x := by
  cases x <;> decide

@[simp] theorem ITime.ofMs_toMs (x : ITime) : ITime.ofMs x.toMs = some x := by
  cases x <;> decide

@[simp] theorem ITime.ofBits_bits (x : ITime) : ITime.ofBits x.bits = some x := by
  cases x <;> decide

theorem Gain.ofQ_eq_some {g : GainQ} {x : Gain} : Gain.ofQ g = some x ↔ g = x.toQ := by
  constructor
  · unfold Gain.ofQ
    intro h
    split_ifs at h <;> cases h <;> assumption
  · rintro rfl
    exact Gain.ofQ_toQ x

theorem Gain.ofBits_eq_some {fb : Word} {x : Gain} : Gain.ofBits fb = some x ↔ fb = x.bits := by
  constructor
  · unfold Gain.ofBits
    intro h
    split_ifs at h <;> cases h <;> assumption
  · rintro rfl
    exact Gain.ofBits_bits x

theorem ITime.ofMs_eq_some {t : Millis} {x : ITime} : ITime.ofMs t = some x ↔ t = x.toMs := by
  constructor
  · unfold ITime.ofMs
    intro h
    split_ifs at h <;> cases h <;> assumption
  · rintro rfl
    exact ITime.ofMs_toMs x

theorem ITime.ofBits_eq_some {fb : Word} {x : ITime} : ITime.ofBits fb = some x ↔ fb = x.bits := by
  constructor
  · unfold ITime.ofBits
    intro h
    split_ifs at h <;> cases h <;> assumption
  · rintro rfl
    exact ITime.ofBits_bits x

/-- The two bytes of a register on the wire give the register back (R34, R38). -/
@[simp] theorem wordOfBytes_bytes (v : Word) : wordOfBytes (lsByte v) (msByte v) = v := by
  apply BitVec.eq_of_getLsbD_eq
  intro i hi
  simp only [wordOfBytes, lsByte, msByte, BitVec.getLsbD_append, BitVec.getLsbD_extractLsb']
  by_cases h : i < 8
  · simp [h]
  · have h2 : i - 8 < 8 := by omega
    have h3 : 8 + (i - 8) = i := by omega
    simp [h, h2, h3]

/-- A register change of one field never sets the SD bit where the keep-mask keeps nothing of it. -/
@[simp] theorem sdBit_and_sdKeep (r : Word) : sdBit (r &&& sdKeep) = false := by
  simp [sdBit, sdKeep]

end Sys2Proof.Machine
end

