-- ==== Sys2Proof/Laws/State.lean ====
section
/-! SUPPORT. One lemma per field per update of State, each true by unfolding, so that no proof unfolds a record update. -/

namespace Sys2Proof.Machine

variable (s : State)

@[simp] theorem accept_commands (i : Instr) : (s.accept i).commands = s.commands := rfl
@[simp] theorem accept_response (i : Instr) : (s.accept i).response = none := rfl
@[simp] theorem accept_seq (i : Instr) : (s.accept i).seq = some { op := i, position := 0, values := [] } := rfl
@[simp] theorem accept_setting (i : Instr) : (s.accept i).setting = s.setting := rfl
@[simp] theorem accept_hThresh (i : Instr) : (s.accept i).hThresh = s.hThresh := rfl
@[simp] theorem accept_lThresh (i : Instr) : (s.accept i).lThresh = s.lThresh := rfl
@[simp] theorem accept_powerSave (i : Instr) : (s.accept i).powerSave = s.powerSave := rfl
@[simp] theorem accept_ambientLight (i : Instr) : (s.accept i).ambientLight = s.ambientLight := rfl
@[simp] theorem accept_whiteLight (i : Instr) : (s.accept i).whiteLight = s.whiteLight := rfl
@[simp] theorem accept_interrupt (i : Instr) : (s.accept i).interrupt = s.interrupt := rfl
@[simp] theorem accept_settling (i : Instr) : (s.accept i).settling = s.settling := rfl
@[simp] theorem accept_settleReads (i : Instr) : (s.accept i).settleReads = s.settleReads := rfl
@[simp] theorem accept_session (i : Instr) : (s.accept i).session = s.session := rfl
@[simp] theorem accept_answers (i : Instr) : (s.accept i).answers = s.answers := rfl
@[simp] theorem accept_drawn (i : Instr) : (s.accept i).drawn = s.drawn := rfl
@[simp] theorem accept_bus (i : Instr) : (s.accept i).bus = s.bus := rfl

@[simp] theorem respond_commands (r : Response) : (s.respond r).commands = s.commands := rfl
@[simp] theorem respond_response (r : Response) : (s.respond r).response = some r := rfl
@[simp] theorem respond_seq (r : Response) : (s.respond r).seq = none := rfl
@[simp] theorem respond_setting (r : Response) : (s.respond r).setting = s.setting := rfl
@[simp] theorem respond_hThresh (r : Response) : (s.respond r).hThresh = s.hThresh := rfl
@[simp] theorem respond_lThresh (r : Response) : (s.respond r).lThresh = s.lThresh := rfl
@[simp] theorem respond_powerSave (r : Response) : (s.respond r).powerSave = s.powerSave := rfl
@[simp] theorem respond_ambientLight (r : Response) : (s.respond r).ambientLight = s.ambientLight := rfl
@[simp] theorem respond_whiteLight (r : Response) : (s.respond r).whiteLight = s.whiteLight := rfl
@[simp] theorem respond_interrupt (r : Response) : (s.respond r).interrupt = s.interrupt := rfl
@[simp] theorem respond_settling (r : Response) : (s.respond r).settling = s.settling := rfl
@[simp] theorem respond_settleReads (r : Response) : (s.respond r).settleReads = s.settleReads := rfl
@[simp] theorem respond_session (r : Response) : (s.respond r).session = s.session := rfl
@[simp] theorem respond_answers (r : Response) : (s.respond r).answers = s.answers := rfl
@[simp] theorem respond_drawn (r : Response) : (s.respond r).drawn = s.drawn := rfl
@[simp] theorem respond_bus (r : Response) : (s.respond r).bus = s.bus := rfl

@[simp] theorem advance_commands (vs : List Word) : (s.advance vs).commands = s.commands := rfl
@[simp] theorem advance_response (vs : List Word) : (s.advance vs).response = s.response := rfl
@[simp] theorem advance_seq (vs : List Word) : (s.advance vs).seq = s.seq.map fun q => { q with position := q.position + 1, values := q.values ++ vs } := rfl
@[simp] theorem advance_setting (vs : List Word) : (s.advance vs).setting = s.setting := rfl
@[simp] theorem advance_hThresh (vs : List Word) : (s.advance vs).hThresh = s.hThresh := rfl
@[simp] theorem advance_lThresh (vs : List Word) : (s.advance vs).lThresh = s.lThresh := rfl
@[simp] theorem advance_powerSave (vs : List Word) : (s.advance vs).powerSave = s.powerSave := rfl
@[simp] theorem advance_ambientLight (vs : List Word) : (s.advance vs).ambientLight = s.ambientLight := rfl
@[simp] theorem advance_whiteLight (vs : List Word) : (s.advance vs).whiteLight = s.whiteLight := rfl
@[simp] theorem advance_interrupt (vs : List Word) : (s.advance vs).interrupt = s.interrupt := rfl
@[simp] theorem advance_settling (vs : List Word) : (s.advance vs).settling = s.settling := rfl
@[simp] theorem advance_settleReads (vs : List Word) : (s.advance vs).settleReads = s.settleReads := rfl
@[simp] theorem advance_session (vs : List Word) : (s.advance vs).session = s.session := rfl
@[simp] theorem advance_answers (vs : List Word) : (s.advance vs).answers = s.answers := rfl
@[simp] theorem advance_drawn (vs : List Word) : (s.advance vs).drawn = s.drawn := rfl
@[simp] theorem advance_bus (vs : List Word) : (s.advance vs).bus = s.bus := rfl

@[simp] theorem storeSetting_commands (w : Word) : (s.storeSetting w).commands = s.commands := rfl
@[simp] theorem storeSetting_response (w : Word) : (s.storeSetting w).response = s.response := rfl
@[simp] theorem storeSetting_seq (w : Word) : (s.storeSetting w).seq = s.seq := rfl
@[simp] theorem storeSetting_setting (w : Word) : (s.storeSetting w).setting = w := rfl
@[simp] theorem storeSetting_hThresh (w : Word) : (s.storeSetting w).hThresh = s.hThresh := rfl
@[simp] theorem storeSetting_lThresh (w : Word) : (s.storeSetting w).lThresh = s.lThresh := rfl
@[simp] theorem storeSetting_powerSave (w : Word) : (s.storeSetting w).powerSave = s.powerSave := rfl
@[simp] theorem storeSetting_ambientLight (w : Word) : (s.storeSetting w).ambientLight = s.ambientLight := rfl
@[simp] theorem storeSetting_whiteLight (w : Word) : (s.storeSetting w).whiteLight = s.whiteLight := rfl
@[simp] theorem storeSetting_interrupt (w : Word) : (s.storeSetting w).interrupt = s.interrupt := rfl
@[simp] theorem storeSetting_settling (w : Word) : (s.storeSetting w).settling = (s.settling || (sdBit s.setting && !sdBit w)) := rfl
@[simp] theorem storeSetting_settleReads (w : Word) : (s.storeSetting w).settleReads = s.settleReads := rfl
@[simp] theorem storeSetting_session (w : Word) : (s.storeSetting w).session = s.session := rfl
@[simp] theorem storeSetting_answers (w : Word) : (s.storeSetting w).answers = s.answers := rfl
@[simp] theorem storeSetting_drawn (w : Word) : (s.storeSetting w).drawn = s.drawn := rfl
@[simp] theorem storeSetting_bus (w : Word) : (s.storeSetting w).bus = s.bus := rfl

@[simp] theorem storeSample_commands (v : Word) : (s.storeSample v).commands = s.commands := rfl
@[simp] theorem storeSample_response (v : Word) : (s.storeSample v).response = s.response := rfl
@[simp] theorem storeSample_seq (v : Word) : (s.storeSample v).seq = s.seq := rfl
@[simp] theorem storeSample_setting (v : Word) : (s.storeSample v).setting = s.setting := rfl
@[simp] theorem storeSample_hThresh (v : Word) : (s.storeSample v).hThresh = s.hThresh := rfl
@[simp] theorem storeSample_lThresh (v : Word) : (s.storeSample v).lThresh = s.lThresh := rfl
@[simp] theorem storeSample_powerSave (v : Word) : (s.storeSample v).powerSave = s.powerSave := rfl
@[simp] theorem storeSample_ambientLight (v : Word) : (s.storeSample v).ambientLight = v := rfl
@[simp] theorem storeSample_whiteLight (v : Word) : (s.storeSample v).whiteLight = s.whiteLight := rfl
@[simp] theorem storeSample_interrupt (v : Word) : (s.storeSample v).interrupt = s.interrupt := rfl
@[simp] theorem storeSample_settling (v : Word) : (s.storeSample v).settling = s.settling := rfl
@[simp] theorem storeSample_settleReads (v : Word) : (s.storeSample v).settleReads = s.settleReads := rfl
@[simp] theorem storeSample_session (v : Word) : (s.storeSample v).session = s.session := rfl
@[simp] theorem storeSample_answers (v : Word) : (s.storeSample v).answers = s.answers := rfl
@[simp] theorem storeSample_drawn (v : Word) : (s.storeSample v).drawn = s.drawn := rfl
@[simp] theorem storeSample_bus (v : Word) : (s.storeSample v).bus = s.bus := rfl

@[simp] theorem useAnswer_commands : (s.useAnswer).commands = s.commands := rfl
@[simp] theorem useAnswer_response : (s.useAnswer).response = s.response := rfl
@[simp] theorem useAnswer_seq : (s.useAnswer).seq = s.seq := rfl
@[simp] theorem useAnswer_setting : (s.useAnswer).setting = s.setting := rfl
@[simp] theorem useAnswer_hThresh : (s.useAnswer).hThresh = s.hThresh := rfl
@[simp] theorem useAnswer_lThresh : (s.useAnswer).lThresh = s.lThresh := rfl
@[simp] theorem useAnswer_powerSave : (s.useAnswer).powerSave = s.powerSave := rfl
@[simp] theorem useAnswer_ambientLight : (s.useAnswer).ambientLight = s.ambientLight := rfl
@[simp] theorem useAnswer_whiteLight : (s.useAnswer).whiteLight = s.whiteLight := rfl
@[simp] theorem useAnswer_interrupt : (s.useAnswer).interrupt = s.interrupt := rfl
@[simp] theorem useAnswer_settling : (s.useAnswer).settling = s.settling := rfl
@[simp] theorem useAnswer_settleReads : (s.useAnswer).settleReads = s.settleReads := rfl
@[simp] theorem useAnswer_session : (s.useAnswer).session = s.session := rfl
@[simp] theorem useAnswer_answers : (s.useAnswer).answers = s.answers.tail := rfl
@[simp] theorem useAnswer_drawn : (s.useAnswer).drawn = s.drawn + 1 := rfl
@[simp] theorem useAnswer_bus : (s.useAnswer).bus = s.bus := rfl

@[simp] theorem record_commands (e : BusEvent) : (s.record e).commands = s.commands := rfl
@[simp] theorem record_response (e : BusEvent) : (s.record e).response = s.response := rfl
@[simp] theorem record_seq (e : BusEvent) : (s.record e).seq = s.seq := rfl
@[simp] theorem record_setting (e : BusEvent) : (s.record e).setting = s.setting := rfl
@[simp] theorem record_hThresh (e : BusEvent) : (s.record e).hThresh = s.hThresh := rfl
@[simp] theorem record_lThresh (e : BusEvent) : (s.record e).lThresh = s.lThresh := rfl
@[simp] theorem record_powerSave (e : BusEvent) : (s.record e).powerSave = s.powerSave := rfl
@[simp] theorem record_ambientLight (e : BusEvent) : (s.record e).ambientLight = s.ambientLight := rfl
@[simp] theorem record_whiteLight (e : BusEvent) : (s.record e).whiteLight = s.whiteLight := rfl
@[simp] theorem record_interrupt (e : BusEvent) : (s.record e).interrupt = s.interrupt := rfl
@[simp] theorem record_settling (e : BusEvent) : (s.record e).settling = s.settling := rfl
@[simp] theorem record_settleReads (e : BusEvent) : (s.record e).settleReads = s.settleReads := rfl
@[simp] theorem record_session (e : BusEvent) : (s.record e).session = s.session := rfl
@[simp] theorem record_answers (e : BusEvent) : (s.record e).answers = s.answers := rfl
@[simp] theorem record_drawn (e : BusEvent) : (s.record e).drawn = s.drawn := rfl
@[simp] theorem record_bus (e : BusEvent) : (s.record e).bus = s.bus ++ [e] := rfl

@[simp] theorem wait_commands (ms : Nat) : (wait ms s).commands = s.commands := rfl
@[simp] theorem wait_response (ms : Nat) : (wait ms s).response = s.response := rfl
@[simp] theorem wait_seq (ms : Nat) : (wait ms s).seq = s.seq.map fun q => { q with position := q.position + 1, values := q.values ++ [] } := rfl
@[simp] theorem wait_setting (ms : Nat) : (wait ms s).setting = s.setting := rfl
@[simp] theorem wait_hThresh (ms : Nat) : (wait ms s).hThresh = s.hThresh := rfl
@[simp] theorem wait_lThresh (ms : Nat) : (wait ms s).lThresh = s.lThresh := rfl
@[simp] theorem wait_powerSave (ms : Nat) : (wait ms s).powerSave = s.powerSave := rfl
@[simp] theorem wait_ambientLight (ms : Nat) : (wait ms s).ambientLight = s.ambientLight := rfl
@[simp] theorem wait_whiteLight (ms : Nat) : (wait ms s).whiteLight = s.whiteLight := rfl
@[simp] theorem wait_interrupt (ms : Nat) : (wait ms s).interrupt = s.interrupt := rfl
@[simp] theorem wait_settling (ms : Nat) : (wait ms s).settling = (s.settling && decide (ms < 4)) := rfl
@[simp] theorem wait_settleReads (ms : Nat) : (wait ms s).settleReads = s.settleReads := rfl
@[simp] theorem wait_session (ms : Nat) : (wait ms s).session = s.session := rfl
@[simp] theorem wait_answers (ms : Nat) : (wait ms s).answers = s.answers := rfl
@[simp] theorem wait_drawn (ms : Nat) : (wait ms s).drawn = s.drawn := rfl
@[simp] theorem wait_bus (ms : Nat) : (wait ms s).bus = s.bus ++ [.wait ms] := rfl

/-! The answers to come. -/

@[simp] theorem accept_answer (i : Instr) (k : Nat) : (s.accept i).answer k = s.answer k := rfl
@[simp] theorem respond_answer (r : Response) (k : Nat) : (s.respond r).answer k = s.answer k := rfl
@[simp] theorem advance_answer (vs : List Word) (k : Nat) : (s.advance vs).answer k = s.answer k := rfl
@[simp] theorem storeSetting_answer (w : Word) (k : Nat) : (s.storeSetting w).answer k = s.answer k := rfl
@[simp] theorem storeSample_answer (v : Word) (k : Nat) : (s.storeSample v).answer k = s.answer k := rfl
@[simp] theorem record_answer (e : BusEvent) (k : Nat) : (s.record e).answer k = s.answer k := rfl
@[simp] theorem wait_answer (ms : Nat) (k : Nat) : (wait ms s).answer k = s.answer k := rfl

@[simp] theorem useAnswer_answer (k : Nat) : s.useAnswer.answer k = s.answer (k + 1) := by
  have h : s.drawn + 1 + k = s.drawn + (k + 1) := by omega
  simp [State.answer, h]

/-! A command taken off the port changes no answer. -/

@[simp] theorem commands_answer (l : List Command) (k : Nat) :
    ({ s with commands := l } : State).answer k = s.answer k := rfl

end Sys2Proof.Machine
end

