-- ==== Sys2Proof/Laws/Ops.lean ====
section
/-! SUPPORT. What each shared operation can do, said once: the arrival of a transaction, the transport primitives, the
sequencing of transactions, and the way an operation runs. -/

namespace Sys2Proof.Machine

variable (s : State)

/-! ## Arrival: the answer is used, a foreign write may land -/

theorem foreignWrite_single {s : State} (h : s.session = .single) (a : Answer) : s.foreignWrite a = s := by
  simp [State.foreignWrite, h]

theorem arrive_single {s : State} (h : s.session = .single) : s.arrive = s.useAnswer :=
  foreignWrite_single (s := s.useAnswer) h _

theorem foreignWrite_shared {s : State} (h : s.session = .shared) {a : Answer} {w : Word} (ha : a.foreign = some w) :
    s.foreignWrite a = s.storeSetting w := by
  simp [State.foreignWrite, h, ha]

theorem foreignWrite_none {a : Answer} (ha : a.foreign = none) : s.foreignWrite a = s := by
  unfold State.foreignWrite
  rw [ha]
  split
  · next h => cases h
  · rfl

@[simp] theorem foreignWrite_commands (a : Answer) : (s.foreignWrite a).commands = s.commands := by
  unfold State.foreignWrite; split <;> rfl
@[simp] theorem foreignWrite_response (a : Answer) : (s.foreignWrite a).response = s.response := by
  unfold State.foreignWrite; split <;> rfl
@[simp] theorem foreignWrite_seq (a : Answer) : (s.foreignWrite a).seq = s.seq := by
  unfold State.foreignWrite; split <;> rfl
@[simp] theorem foreignWrite_hThresh (a : Answer) : (s.foreignWrite a).hThresh = s.hThresh := by
  unfold State.foreignWrite; split <;> rfl
@[simp] theorem foreignWrite_lThresh (a : Answer) : (s.foreignWrite a).lThresh = s.lThresh := by
  unfold State.foreignWrite; split <;> rfl
@[simp] theorem foreignWrite_powerSave (a : Answer) : (s.foreignWrite a).powerSave = s.powerSave := by
  unfold State.foreignWrite; split <;> rfl
@[simp] theorem foreignWrite_ambientLight (a : Answer) : (s.foreignWrite a).ambientLight = s.ambientLight := by
  unfold State.foreignWrite; split <;> rfl
@[simp] theorem foreignWrite_whiteLight (a : Answer) : (s.foreignWrite a).whiteLight = s.whiteLight := by
  unfold State.foreignWrite; split <;> rfl
@[simp] theorem foreignWrite_interrupt (a : Answer) : (s.foreignWrite a).interrupt = s.interrupt := by
  unfold State.foreignWrite; split <;> rfl
@[simp] theorem foreignWrite_settleReads (a : Answer) : (s.foreignWrite a).settleReads = s.settleReads := by
  unfold State.foreignWrite; split <;> rfl
@[simp] theorem foreignWrite_session (a : Answer) : (s.foreignWrite a).session = s.session := by
  unfold State.foreignWrite; split <;> rfl
@[simp] theorem foreignWrite_bus (a : Answer) : (s.foreignWrite a).bus = s.bus := by
  unfold State.foreignWrite; split <;> rfl
@[simp] theorem foreignWrite_answers (a : Answer) : (s.foreignWrite a).answers = s.answers := by
  unfold State.foreignWrite; split <;> rfl
@[simp] theorem foreignWrite_drawn (a : Answer) : (s.foreignWrite a).drawn = s.drawn := by
  unfold State.foreignWrite; split <;> rfl

@[simp] theorem arrive_commands : s.arrive.commands = s.commands := by simp [State.arrive]
@[simp] theorem arrive_response : s.arrive.response = s.response := by simp [State.arrive]
@[simp] theorem arrive_seq : s.arrive.seq = s.seq := by simp [State.arrive]
@[simp] theorem arrive_hThresh : s.arrive.hThresh = s.hThresh := by simp [State.arrive]
@[simp] theorem arrive_lThresh : s.arrive.lThresh = s.lThresh := by simp [State.arrive]
@[simp] theorem arrive_powerSave : s.arrive.powerSave = s.powerSave := by simp [State.arrive]
@[simp] theorem arrive_ambientLight : s.arrive.ambientLight = s.ambientLight := by simp [State.arrive]
@[simp] theorem arrive_whiteLight : s.arrive.whiteLight = s.whiteLight := by simp [State.arrive]
@[simp] theorem arrive_interrupt : s.arrive.interrupt = s.interrupt := by simp [State.arrive]
@[simp] theorem arrive_settleReads : s.arrive.settleReads = s.settleReads := by simp [State.arrive]
@[simp] theorem arrive_session : s.arrive.session = s.session := by simp [State.arrive]
@[simp] theorem arrive_bus : s.arrive.bus = s.bus := by simp [State.arrive]
@[simp] theorem arrive_answers : s.arrive.answers = s.answers.tail := by simp [State.arrive]
@[simp] theorem arrive_drawn : s.arrive.drawn = s.drawn + 1 := by simp [State.arrive]

@[simp] theorem arrive_answer (k : Nat) : s.arrive.answer k = s.answer (k + 1) := by
  have h : s.arrive.answer k = s.useAnswer.answer k := by
    simp only [State.answer, arrive_answers, arrive_drawn, useAnswer_answers, useAnswer_drawn]
  rw [h, useAnswer_answer]

/-! ## Transactions -/

/-- The machine after a read transaction of the core that went through, the core holding the value (R15, R36). -/
def afterRead (r : ReadReg) (s : State) : State :=
  ((deviceAfterRead r (deviceReply r (s.answer 0) s.arrive) s.arrive).record
    (.read Config.busAddr r.addr
      [lsByte (deviceReply r (s.answer 0) s.arrive), msByte (deviceReply r (s.answer 0) s.arrive)] .ok)).advance
    [deviceReply r (s.answer 0) s.arrive]

/-- The machine after a read transaction that did not go through. -/
def afterReadLost (r : ReadReg) (done : Completion) (s : State) : State :=
  s.arrive.record (.read Config.busAddr r.addr [] done)

/-- The machine after a write transaction of `v` as the transport leaves it, however it ended. -/
def afterWrite (v : Word) (s : State) : State :=
  (if (s.answer 0).completion = .ok || (s.answer 0).landed then s.arrive.storeSetting v else s.arrive).record
    (.write Config.busAddr settingAddr [lsByte v, msByte v] (s.answer 0).completion)

variable {s}

/-- Everything `RegRead16` can do (R38): the value goes with the bytes on the wire. -/
theorem regRead16_eq (r : ReadReg) : regRead16 r s =
    match (s.answer 0).completion with
    | .ok => .ok (deviceReply r (s.answer 0) s.arrive) (afterRead r s)
    | .failed => .failed (afterReadLost r .failed s)
    | .never => .never (afterReadLost r .never s) := by
  unfold regRead16 memRead afterRead afterReadLost
  dsimp only
  cases h : (s.answer 0).completion <;> simp [Tx.bind]

/-- Everything `RegWrite16` can do (R39). -/
theorem regWrite16_eq (v : Word) : regWrite16 v s =
    match (s.answer 0).completion with
    | .ok => .ok () ((afterWrite v s).advance [])
    | .failed => .failed (afterWrite v s)
    | .never => .never (afterWrite v s) := by
  unfold regWrite16 memWrite afterWrite deviceAfterWrite
  dsimp only
  cases h : (s.answer 0).completion <;> simp [Tx.bind]

/-- Everything `Probe` can do (R40). -/
theorem probe_eq : probe s =
    match (s.answer 0).completion with
    | .ok => .ok true ((s.arrive.record (.probe Config.busAddr .ok)).advance [])
    | .failed => .ok false ((s.arrive.record (.probe Config.busAddr .failed)).advance [])
    | .never => .never (s.arrive.record (.probe Config.busAddr .never)) := by
  unfold probe
  dsimp only
  cases h : (s.answer 0).completion <;> simp

theorem regRead16_ok (r : ReadReg) (h : (s.answer 0).completion = .ok) :
    regRead16 r s = .ok (deviceReply r (s.answer 0) s.arrive) (afterRead r s) := by
  simp [regRead16_eq, h]

theorem regRead16_failed (r : ReadReg) (h : (s.answer 0).completion = .failed) :
    regRead16 r s = .failed (afterReadLost r .failed s) := by
  simp [regRead16_eq, h]

theorem regRead16_never (r : ReadReg) (h : (s.answer 0).completion = .never) :
    regRead16 r s = .never (afterReadLost r .never s) := by
  simp [regRead16_eq, h]

theorem regWrite16_ok (v : Word) (h : (s.answer 0).completion = .ok) :
    regWrite16 v s = .ok () ((afterWrite v s).advance []) := by
  simp [regWrite16_eq, h]

theorem regWrite16_failed (v : Word) (h : (s.answer 0).completion = .failed) :
    regWrite16 v s = .failed (afterWrite v s) := by
  simp [regWrite16_eq, h]

theorem regWrite16_never (v : Word) (h : (s.answer 0).completion = .never) :
    regWrite16 v s = .never (afterWrite v s) := by
  simp [regWrite16_eq, h]

variable (s)

@[simp] theorem afterRead_answer (r : ReadReg) (k : Nat) : (afterRead r s).answer k = s.answer (k + 1) := by
  cases r <;> simp [afterRead, deviceAfterRead]

@[simp] theorem afterReadLost_answer (r : ReadReg) (d : Completion) (k : Nat) :
    (afterReadLost r d s).answer k = s.answer (k + 1) := by
  simp [afterReadLost]

@[simp] theorem afterWrite_answer (v : Word) (k : Nat) : (afterWrite v s).answer k = s.answer (k + 1) := by
  unfold afterWrite
  split <;> simp

/-! ## Sequences of transactions -/

/-- Every state a sequence can end in satisfies `P`. -/
def Tx.Ends {α : Type} (P : State → Prop) : Tx α → Prop
  | .ok _ t => P t
  | .failed t => P t
  | .never t => P t

variable {s} {P : State → Prop} {α β : Type}

/-- A property that the first part reaches and every continuation keeps holds at the end. -/
theorem Tx.Ends.bind {x : Tx α} {f : α → State → Tx β} (hx : x.Ends P)
    (hf : ∀ v t, P t → (f v t).Ends P) : (x.bind f).Ends P := by
  cases x with
  | ok v t => exact hf v t hx
  | failed t => exact hx
  | never t => exact hx

/-- What no transaction and no wait touches: the caller's commands, the response port, the five registers of R19 that
the core never accesses, and the launch premises. -/
structure Untouched (s t : State) : Prop where
  commands : t.commands = s.commands
  response : t.response = s.response
  hThresh : t.hThresh = s.hThresh
  lThresh : t.lThresh = s.lThresh
  powerSave : t.powerSave = s.powerSave
  whiteLight : t.whiteLight = s.whiteLight
  interrupt : t.interrupt = s.interrupt
  settleReads : t.settleReads = s.settleReads
  session : t.session = s.session

theorem Untouched.refl (s : State) : Untouched s s := ⟨rfl, rfl, rfl, rfl, rfl, rfl, rfl, rfl, rfl⟩

theorem Untouched.trans {s t u : State} (h : Untouched s t) (k : Untouched t u) : Untouched s u :=
  ⟨k.commands.trans h.commands, k.response.trans h.response, k.hThresh.trans h.hThresh, k.lThresh.trans h.lThresh,
    k.powerSave.trans h.powerSave, k.whiteLight.trans h.whiteLight, k.interrupt.trans h.interrupt,
    k.settleReads.trans h.settleReads, k.session.trans h.session⟩

theorem afterRead_untouched (r : ReadReg) : Untouched s (afterRead r s) := by
  cases r <;> constructor <;> simp [afterRead, deviceAfterRead]

theorem afterReadLost_untouched (r : ReadReg) (d : Completion) : Untouched s (afterReadLost r d s) := by
  constructor <;> simp [afterReadLost]

theorem afterWrite_untouched (v : Word) : Untouched s (afterWrite v s) := by
  unfold afterWrite
  split <;> constructor <;> simp

theorem wait_untouched (ms : Nat) : Untouched s (wait ms s) := by
  constructor <;> simp

theorem regRead16_untouched {s0 : State} (r : ReadReg) (h : Untouched s0 s) :
    (regRead16 r s).Ends (Untouched s0) := by
  rw [regRead16_eq]
  split
  · exact h.trans (afterRead_untouched r)
  · exact h.trans (afterReadLost_untouched r _)
  · exact h.trans (afterReadLost_untouched r _)

theorem regWrite16_untouched {s0 : State} (v : Word) (h : Untouched s0 s) :
    (regWrite16 v s).Ends (Untouched s0) := by
  rw [regWrite16_eq]
  have h1 := h.trans (afterWrite_untouched v)
  split
  · exact ⟨h1.commands, h1.response, h1.hThresh, h1.lThresh, h1.powerSave, h1.whiteLight, h1.interrupt,
      h1.settleReads, h1.session⟩
  · exact h1
  · exact h1

theorem probe_untouched {s0 : State} (h : Untouched s0 s) : (probe s).Ends (Untouched s0) := by
  rw [probe_eq]
  split <;> refine h.trans ?_ <;> constructor <;> simp

/-! ## How an operation runs -/

@[simp] theorem whenIdle_idle {t : State} (h : s.seq = none) : whenIdle s t = .next t := by
  simp [whenIdle, h]

@[simp] theorem whenIdle_busy {t : State} {q : Sequencer} (h : s.seq = some q) :
    whenIdle s t = .refused .commandWhileBusy := by
  simp [whenIdle, h]

/-- An operation answers a next state exactly when the core is idle, and then the state it was given. -/
theorem whenIdle_eq_next {t u : State} : whenIdle s t = .next u ↔ s.seq = none ∧ t = u := by
  cases h : s.seq <;> simp [h]

theorem pureOp_idle {r : Response} (h : s.seq = none) : pureOp r s = .next { s with response := some r } := by
  simp [pureOp, State.respond, h]

theorem busOp_idle {i : Instr} {run : State → Tx Response} (h : s.seq = none) :
    busOp i run s = .next (conclude (run (s.accept i))) := by
  simp [busOp, h]

theorem fetch_cons {w : Command} {rest : List Command} (h : s.commands = w :: rest) :
    fetch s = some (w, { s with commands := rest }) := by
  simp [fetch, h]

theorem fetch_nil (h : s.commands = []) : fetch s = none := by
  simp [fetch, h]

end Sys2Proof.Machine
end

