-- ==== Sys2Proof/Laws/Bus.lean ====
section
/-! SUPPORT. The sequences of the bus operations, each said once per way its transactions can end, for every session and
every value of `SETTLE_READS`; and what those sequences do to the bus history, the sequencer and SETTING. -/

namespace Sys2Proof.Machine

variable {s : State}

/-- The word that a SETTING read made now returns (R20, R165), after any foreign write has landed (R166). -/
def settingReply (s : State) : Word := deviceReply .setting (s.answer 0) s.arrive

/-- The event of a read that goes through now. -/
def readOk (r : ReadReg) (s : State) : BusEvent :=
  .read Config.busAddr r.addr
    [lsByte (deviceReply r (s.answer 0) s.arrive), msByte (deviceReply r (s.answer 0) s.arrive)] .ok

/-! ## One read, one write -/

@[simp] theorem afterRead_bus (r : ReadReg) : (afterRead r s).bus = s.bus ++ [readOk r s] := by
  cases r <;> simp [afterRead, deviceAfterRead, readOk]

@[simp] theorem afterRead_seq (r : ReadReg) : (afterRead r s).seq = s.seq.map fun q =>
    { q with position := q.position + 1, values := q.values ++ [deviceReply r (s.answer 0) s.arrive] } := by
  cases r <;> simp [afterRead, deviceAfterRead]

@[simp] theorem afterRead_response (r : ReadReg) : (afterRead r s).response = s.response :=
  (afterRead_untouched r).response

@[simp] theorem afterRead_session (r : ReadReg) : (afterRead r s).session = s.session :=
  (afterRead_untouched r).session

@[simp] theorem afterRead_settleReads (r : ReadReg) : (afterRead r s).settleReads = s.settleReads :=
  (afterRead_untouched r).settleReads

@[simp] theorem afterRead_setting (r : ReadReg) : (afterRead r s).setting = s.arrive.setting := by
  cases r <;> simp [afterRead, deviceAfterRead]

@[simp] theorem afterRead_settling (r : ReadReg) : (afterRead r s).settling = s.arrive.settling := by
  cases r <;> simp [afterRead, deviceAfterRead]

@[simp] theorem afterReadLost_bus (r : ReadReg) (d : Completion) :
    (afterReadLost r d s).bus = s.bus ++ [.read Config.busAddr r.addr [] d] := by
  simp [afterReadLost]

@[simp] theorem afterReadLost_seq (r : ReadReg) (d : Completion) : (afterReadLost r d s).seq = s.seq := by
  simp [afterReadLost]

@[simp] theorem afterReadLost_response (r : ReadReg) (d : Completion) :
    (afterReadLost r d s).response = s.response := by
  simp [afterReadLost]

@[simp] theorem afterReadLost_setting (r : ReadReg) (d : Completion) :
    (afterReadLost r d s).setting = s.arrive.setting := by
  simp [afterReadLost]

@[simp] theorem afterReadLost_settling (r : ReadReg) (d : Completion) :
    (afterReadLost r d s).settling = s.arrive.settling := by
  simp [afterReadLost]

@[simp] theorem afterWrite_bus (v : Word) : (afterWrite v s).bus =
    s.bus ++ [.write Config.busAddr settingAddr [lsByte v, msByte v] (s.answer 0).completion] := by
  unfold afterWrite
  split <;> simp

@[simp] theorem afterWrite_seq (v : Word) : (afterWrite v s).seq = s.seq := by
  unfold afterWrite
  split <;> simp

@[simp] theorem afterWrite_response (v : Word) : (afterWrite v s).response = s.response :=
  (afterWrite_untouched v).response

@[simp] theorem afterWrite_session (v : Word) : (afterWrite v s).session = s.session :=
  (afterWrite_untouched v).session

theorem afterWrite_setting (v : Word) : (afterWrite v s).setting =
    if (s.answer 0).completion = .ok || (s.answer 0).landed then v else s.arrive.setting := by
  unfold afterWrite
  split <;> simp

theorem afterWrite_setting_ok (v : Word) (h : (s.answer 0).completion = .ok) : (afterWrite v s).setting = v := by
  simp [afterWrite_setting, h]

theorem arrive_setting (h : s.session = .single) : s.arrive.setting = s.setting := by
  rw [arrive_single h]
  rfl

/-- In a shared session a transaction finds in SETTING what another master wrote last, if it wrote (R43, R166). -/
theorem arrive_setting_shared (h : s.session = .shared) :
    s.arrive.setting = (s.answer 0).foreign.getD s.setting := by
  unfold State.arrive
  cases hf : (s.answer 0).foreign with
  | none =>
    rw [foreignWrite_none _ hf]
    rfl
  | some w =>
    rw [foreignWrite_shared (s := s.useAnswer) h hf]
    rfl

theorem arrive_settling (h : s.session = .single) : s.arrive.settling = s.settling := by
  rw [arrive_single h]
  rfl

/-! ## The read-modify-write -/

theorem updateSetting_ok (f : Word → Word) (h0 : (s.answer 0).completion = .ok)
    (h1 : (s.answer 1).completion = .ok) :
    updateSetting f s = .ok () ((afterWrite (f (settingReply s)) (afterRead .setting s)).advance []) := by
  simp only [updateSetting, regRead16_ok _ h0, Tx.bind]
  exact regWrite16_ok _ (by simpa using h1)

theorem updateSetting_writeFailed (f : Word → Word) (h0 : (s.answer 0).completion = .ok)
    (h1 : (s.answer 1).completion = .failed) :
    updateSetting f s = .failed (afterWrite (f (settingReply s)) (afterRead .setting s)) := by
  simp only [updateSetting, regRead16_ok _ h0, Tx.bind]
  exact regWrite16_failed _ (by simpa using h1)

theorem updateSetting_writeNever (f : Word → Word) (h0 : (s.answer 0).completion = .ok)
    (h1 : (s.answer 1).completion = .never) :
    updateSetting f s = .never (afterWrite (f (settingReply s)) (afterRead .setting s)) := by
  simp only [updateSetting, regRead16_ok _ h0, Tx.bind]
  exact regWrite16_never _ (by simpa using h1)

theorem updateSetting_readFailed (f : Word → Word) (h0 : (s.answer 0).completion = .failed) :
    updateSetting f s = .failed (afterReadLost .setting .failed s) := by
  simp only [updateSetting, regRead16_failed _ h0, Tx.bind]

theorem updateSetting_readNever (f : Word → Word) (h0 : (s.answer 0).completion = .never) :
    updateSetting f s = .never (afterReadLost .setting .never s) := by
  simp only [updateSetting, regRead16_never _ h0, Tx.bind]

/-! ## The three reads of `read_light` -/

theorem readLight_ok (h0 : (s.answer 0).completion = .ok) (h1 : (s.answer 1).completion = .ok)
    (h2 : (s.answer 2).completion = .ok) :
    readLightSequence s = .ok
      (measureResponse convTable (s.answer 0).draw
        ((decodeGain (gainField (settingReply (afterRead .ambientLight s)))).q.setWidth 16)
        ((decodeIntegrationTime (itField (settingReply (afterRead .setting (afterRead .ambientLight s))))).q.setWidth 16))
      (afterRead .setting (afterRead .setting (afterRead .ambientLight s))) := by
  simp only [readLightSequence, regRead16_ok _ h0, Tx.bind]
  rw [regRead16_ok _ (by simpa using h1)]
  dsimp only
  rw [regRead16_ok _ (by simpa using h2)]
  rfl

theorem readLight_third (h0 : (s.answer 0).completion = .ok) (h1 : (s.answer 1).completion = .ok) :
    ((s.answer 2).completion = .failed →
      readLightSequence s = .failed (afterReadLost .setting .failed (afterRead .setting (afterRead .ambientLight s)))) ∧
    ((s.answer 2).completion = .never →
      readLightSequence s = .never (afterReadLost .setting .never (afterRead .setting (afterRead .ambientLight s)))) := by
  simp only [readLightSequence, regRead16_ok _ h0, Tx.bind]
  rw [regRead16_ok _ (by simpa using h1)]
  constructor
  · intro h2
    dsimp only
    rw [regRead16_failed _ (by simpa using h2)]
  · intro h2
    dsimp only
    rw [regRead16_never _ (by simpa using h2)]

theorem readLight_second (h0 : (s.answer 0).completion = .ok) :
    ((s.answer 1).completion = .failed →
      readLightSequence s = .failed (afterReadLost .setting .failed (afterRead .ambientLight s))) ∧
    ((s.answer 1).completion = .never →
      readLightSequence s = .never (afterReadLost .setting .never (afterRead .ambientLight s))) := by
  simp only [readLightSequence, regRead16_ok _ h0, Tx.bind]
  constructor
  · intro h1
    rw [regRead16_failed _ (by simpa using h1)]
  · intro h1
    rw [regRead16_never _ (by simpa using h1)]

theorem readLight_first :
    ((s.answer 0).completion = .failed →
      readLightSequence s = .failed (afterReadLost .ambientLight .failed s)) ∧
    ((s.answer 0).completion = .never →
      readLightSequence s = .never (afterReadLost .ambientLight .never s)) := by
  constructor
  · intro h0
    simp only [readLightSequence, regRead16_failed _ h0, Tx.bind]
  · intro h0
    simp only [readLightSequence, regRead16_never _ h0, Tx.bind]

/-! ## What no operation touches -/

theorem updateSetting_untouched {s0 : State} (f : Word → Word) (h : Untouched s0 s) :
    (updateSetting f s).Ends (Untouched s0) :=
  (regRead16_untouched .setting h).bind fun _ _ h1 => regWrite16_untouched _ h1

theorem powerOnSequence_untouched {s0 : State} (h : Untouched s0 s) :
    (powerOnSequence s).Ends (Untouched s0) :=
  (updateSetting_untouched _ h).bind fun _ _ h1 => h1.trans (wait_untouched 4)

theorem readLightSequence_untouched {s0 : State} (h : Untouched s0 s) :
    (readLightSequence s).Ends (Untouched s0) :=
  (regRead16_untouched _ h).bind fun _ _ h1 =>
    (regRead16_untouched _ h1).bind fun _ _ h2 => (regRead16_untouched _ h2).bind fun _ _ h3 => h3

theorem beginSequence_untouched {s0 : State} (h : Untouched s0 s) :
    (beginSequence s).Ends (Untouched s0) := by
  have h1 := powerOnSequence_untouched h
  unfold beginSequence
  cases hx : powerOnSequence s with
  | ok v t =>
    rw [hx] at h1
    exact (probe_untouched h1).bind fun _ _ h2 => h2
  | failed t =>
    rw [hx] at h1
    exact h1
  | never t =>
    rw [hx] at h1
    exact h1

end Sys2Proof.Machine
end

