-- ==== Sys2Proof/Laws/PerInstr.lean ====
section
/-! SUPPORT. The statements made for every instruction as syntax, one lemma per constructor. Family `Canonical`: the
encoding of the instruction is a canonical command (R63, R69). -/

namespace Sys2Proof.Laws.Canonical

/-- The encoding has an assigned code and writes every ignored port as 0 (R69). -/
def Statement (i : Instr) : Prop := (encode i).wellFormed = true

theorem low_half_only (a : Word) : (a.setWidth 32).extractLsb' 16 16 = 0 := by
  apply BitVec.eq_of_getLsbD_eq
  intro k hk
  simp [BitVec.getLsbD_extractLsb']

theorem encodeGain (b : GainQ) : Statement (.encodeGain b) := by
  simp [Statement, encode, Command.wellFormed, Command.opcodeAssigned, Command.ignoredPortsZero, Command.bare, portUse]

theorem decodeGain (a : Word) : Statement (.decodeGain a) := by
  simp [Statement, encode, Command.wellFormed, Command.opcodeAssigned, Command.ignoredPortsZero, Command.bare, portUse,
    low_half_only]

theorem encodeIntegrationTime (c : Millis) : Statement (.encodeIntegrationTime c) := by
  simp [Statement, encode, Command.wellFormed, Command.opcodeAssigned, Command.ignoredPortsZero, Command.bare, portUse]

theorem decodeIntegrationTime (a : Word) : Statement (.decodeIntegrationTime a) := by
  simp [Statement, encode, Command.wellFormed, Command.opcodeAssigned, Command.ignoredPortsZero, Command.bare, portUse,
    low_half_only]

theorem setField (a b c : Word) (sh : BitVec 4) : Statement (.setField a b c sh) := by
  simp [Statement, encode, Command.wellFormed, Command.opcodeAssigned, Command.ignoredPortsZero, portUse,
    low_half_only]

theorem powerOnWord (a : Word) : Statement (.powerOnWord a) := by
  simp [Statement, encode, Command.wellFormed, Command.opcodeAssigned, Command.ignoredPortsZero, Command.bare, portUse,
    low_half_only]

theorem selectConversionConstant (b : GainQ) (c : Millis) : Statement (.selectConversionConstant b c) := by
  simp [Statement, encode, Command.wellFormed, Command.opcodeAssigned, Command.ignoredPortsZero, Command.bare, portUse]

theorem rawToLux (a : Word) (b : GainQ) (c : Millis) : Statement (.rawToLux a b c) := by
  simp [Statement, encode, Command.wellFormed, Command.opcodeAssigned, Command.ignoredPortsZero, Command.bare, portUse,
    low_half_only]

theorem compensate (a : Lux) : Statement (.compensate a) := by
  simp [Statement, encode, Command.wellFormed, Command.opcodeAssigned, Command.ignoredPortsZero, Command.bare, portUse]

theorem measure (a : Word) (b : GainQ) (c : Millis) : Statement (.measure a b c) := by
  simp [Statement, encode, Command.wellFormed, Command.opcodeAssigned, Command.ignoredPortsZero, Command.bare, portUse,
    low_half_only]

theorem setGain (b : GainQ) : Statement (.setGain b) := by
  simp [Statement, encode, Command.wellFormed, Command.opcodeAssigned, Command.ignoredPortsZero, Command.bare, portUse]

theorem getGain : Statement .getGain := by
  unfold Statement; decide

theorem setIntegrationTime (c : Millis) : Statement (.setIntegrationTime c) := by
  simp [Statement, encode, Command.wellFormed, Command.opcodeAssigned, Command.ignoredPortsZero, Command.bare, portUse]

theorem getIntegrationTime : Statement .getIntegrationTime := by
  unfold Statement; decide

theorem powerOn : Statement .powerOn := by
  unfold Statement; decide

theorem readLight : Statement .readLight := by
  unfold Statement; decide

theorem begin : Statement .begin := by
  unfold Statement; decide

end Sys2Proof.Laws.Canonical
end

