-- ==== Sys2Proof/Tests/Slice0.lean ====
section
/-! SUPPORT. The author's tests: the well-formedness smoke test, decoding of words written out from the spec's encodings,
one-step tests whose expected results are the spec's worked examples and vectors (95_test_vectors.md; the vector is named
at each), and a witness for the hypotheses of each obligation. -/

open Sys2Proof Sys2Proof.Machine Sys2Proof.Claims

namespace Sys2Proof.Tests

/-! ## Helpers -/

/-- A transaction that goes through; a sample or unsettled SETTING read gives `w`. -/
def good (w : Word) : Answer := { foreign := none, completion := .ok, draw := w, landed := false }

/-- A transaction that fails; whether a write lands all the same. -/
def lost (landed : Bool) : Answer := { foreign := none, completion := .failed, draw := 0, landed := landed }

/-- A transaction that never completes. -/
def hung : Answer := { foreign := none, completion := .never, draw := 0, landed := false }

/-- A transaction that goes through after another master has written `w` to SETTING. -/
def after (w : Word) : Answer := { foreign := some w, completion := .ok, draw := 0, landed := false }

/-- An idle core before a settled device that holds `setting`, single session, with these answers to come. -/
def dev (setting : Word) (answers : List Answer) : State :=
  { commands := [], response := none, seq := none, setting := setting, hThresh := 1, lThresh := 2, powerSave := 3,
    ambientLight := 4, whiteLight := 5, interrupt := 6, settling := false, settleReads := .storage, session := .single,
    answers := answers, drawn := 0, bus := [] }

/-- The same core, busy with a `get_gain` that never completes. -/
def busy (cmds : List Command) : State :=
  { dev 0 [] with commands := cmds, seq := some ⟨.getGain, 0, []⟩ }

/-- Response, SETTING and the kinds of bus event after an outcome. -/
def seen (o : Host.Outcome State Fault Refusal) : Option (Option Response × Word × List Kind) :=
  match o with
  | .next t => some (t.response, t.setting, t.bus.map kindOf)
  | .fault _ | .refused _ => none

/-- The data bytes of the writes on the bus after an outcome, in order. -/
def written (o : Host.Outcome State Fault Refusal) : List (List Byte) :=
  match o with
  | .next t => t.bus.filterMap fun e => match e with | .write _ _ bytes _ => some bytes | _ => none
  | .fault _ | .refused _ => []

/-- The response after a step that runs one command on an idle core. -/
def answerTo (op : BitVec 5) (a : BitVec 32) (b c : BitVec 16) (sh : BitVec 4) :
    Option (Option Response × Word × List Kind) :=
  seen (step { dev 0x1AC1 [] with commands := [⟨op, a, b, c, sh⟩] })

/-! ## Well-formedness: each check refuses an ill-formed command -/

theorem test_wellFormed_accepts : Command.wellFormed ⟨0x04, 0x0000FFFF, 0xE7FF, 3, 11⟩ = true := by decide
theorem test_wellFormed_refuses_reserved_code : Command.wellFormed ⟨0x06, 0, 0, 0, 0⟩ = false := by decide
theorem test_wellFormed_refuses_last_reserved_code : Command.wellFormed ⟨0x1F, 0, 0, 0, 0⟩ = false := by decide
theorem test_wellFormed_refuses_high_half_of_a : Command.wellFormed ⟨0x01, 0x00010000, 0, 0, 0⟩ = false := by decide
theorem test_wellFormed_refuses_unused_a : Command.wellFormed ⟨0x00, 1, 8, 0, 0⟩ = false := by decide
theorem test_wellFormed_refuses_unused_b : Command.wellFormed ⟨0x02, 0, 1, 100, 0⟩ = false := by decide
theorem test_wellFormed_refuses_unused_c : Command.wellFormed ⟨0x10, 0, 8, 1, 0⟩ = false := by decide
theorem test_wellFormed_refuses_unused_sh : Command.wellFormed ⟨0x16, 0, 0, 0, 1⟩ = false := by decide

/-! ## Decoding: the tuples of 95_test_vectors.md, the code written out bit by bit from R63 -/

/-- V10: the ignored ports hold junk. -/
theorem test_decode_encodeGain :
    decode ⟨0b00000, 0xDEADBEEF, 0x0008, 0xFFFF, 0xF⟩ = .ok (.encodeGain 0x0008) := by rfl
/-- V12. -/
theorem test_decode_decodeGain : decode ⟨0b00001, 1, 0, 0, 0⟩ = .ok (.decodeGain 1) := by rfl
/-- V18 to V23's form: port `c`. -/
theorem test_decode_encodeIntegrationTime : decode ⟨0b00010, 0, 0, 0x0019, 0⟩ = .ok (.encodeIntegrationTime 25) := by rfl
/-- P5 step 7. -/
theorem test_decode_decodeIntegrationTime : decode ⟨0b00011, 0x000C, 0, 0, 0⟩ = .ok (.decodeIntegrationTime 12) := by rfl
/-- P5 step 3. -/
theorem test_decode_setField :
    decode ⟨0b00100, 0x0000, 0xE7FF, 0x0002, 0xB⟩ = .ok (.setField 0 0xE7FF 2 11) := by rfl
/-- P5 step 1. -/
theorem test_decode_powerOnWord : decode ⟨0b00101, 0x0001, 0, 0, 0⟩ = .ok (.powerOnWord 1) := by rfl
/-- V51. -/
theorem test_decode_selectConversionConstant :
    decode ⟨0b01000, 0, 0x0004, 0x0064, 0⟩ = .ok (.selectConversionConstant 4 100) := by rfl
/-- V55. -/
theorem test_decode_rawToLux : decode ⟨0b01001, 0x03E8, 0x0004, 0x0064, 0⟩ = .ok (.rawToLux 1000 4 100) := by rfl
/-- P5 step 10; all 32 bits of `a` are the operand. -/
theorem test_decode_compensate : decode ⟨0b01010, 0x00047EA8, 0, 0, 0⟩ = .ok (.compensate 294568) := by rfl
/-- V57. -/
theorem test_decode_measure : decode ⟨0b01011, 0xFFFF, 0x07F8, 0x00FF, 0⟩ = .ok (.measure 65535 2040 255) := by rfl
/-- V100. -/
theorem test_decode_setGain : decode ⟨0b10000, 0, 0x0002, 0, 0⟩ = .ok (.setGain 2) := by rfl
/-- V107. -/
theorem test_decode_getGain : decode ⟨0b10001, 0, 0, 0, 0⟩ = .ok .getGain := by rfl
/-- V110. -/
theorem test_decode_setIntegrationTime : decode ⟨0b10010, 0, 0, 0x0019, 0⟩ = .ok (.setIntegrationTime 25) := by rfl
/-- V113. -/
theorem test_decode_getIntegrationTime : decode ⟨0b10011, 0, 0, 0, 0⟩ = .ok .getIntegrationTime := by rfl
/-- V116. -/
theorem test_decode_powerOn : decode ⟨0b10100, 0, 0, 0, 0⟩ = .ok .powerOn := by rfl
/-- V119. -/
theorem test_decode_readLight : decode ⟨0b10101, 0, 0, 0, 0⟩ = .ok .readLight := by rfl
/-- V126. -/
theorem test_decode_begin : decode ⟨0b10110, 0, 0, 0, 0⟩ = .ok .begin := by rfl
/-- V129, and the code after the last one of R63. -/
theorem test_decode_reserved : decode ⟨0x06, 0, 0, 0, 0⟩ = .error (.reservedCode 0x06) ∧
    decode ⟨0x17, 0, 0, 0, 0⟩ = .error (.reservedCode 0x17) := by exact ⟨rfl, rfl⟩
/-- Table numbering: the five bits of the code alone, in one byte. -/
theorem test_decodeTableWord : decodeTableWord 8 0x16 = some .begin ∧ decodeTableWord 8 0x04 = some (.setField 0 0 0 0) ∧
    decodeTableWord 8 0x07 = none := by exact ⟨rfl, rfl, rfl⟩

/-! ## One step of each operation -/

/-- V4. -/
theorem test_encodeGain_quarter : answerTo 0x00 0 0x0002 0 0 = some (some ⟨.ok, 3⟩, 0x1AC1, []) := by decide
/-- V9. -/
theorem test_encodeGain_unknown_image : answerTo 0x00 0 0x07F8 0 0 = some (some ⟨.rejected, 0⟩, 0x1AC1, []) := by decide
/-- V13. -/
theorem test_decodeGain_two : answerTo 0x01 2 0 0 0 = some (some ⟨.ok, 0x0001⟩, 0x1AC1, []) := by decide
/-- R81: every field value from 4 on. -/
theorem test_decodeGain_four : answerTo 0x01 4 0 0 0 = some (some ⟨.unknown, 0x07F8⟩, 0x1AC1, []) := by decide
/-- S7. -/
theorem test_encodeIntegrationTime_50 : answerTo 0x02 0 0 50 0 = some (some ⟨.ok, 8⟩, 0x1AC1, []) := by decide
/-- S8. -/
theorem test_encodeIntegrationTime_150 : answerTo 0x02 0 0 150 0 = some (some ⟨.rejected, 0⟩, 0x1AC1, []) := by decide
/-- P5 step 7. -/
theorem test_decodeIntegrationTime_12 : answerTo 0x03 12 0 0 0 = some (some ⟨.ok, 25⟩, 0x1AC1, []) := by decide
/-- S5. -/
theorem test_decodeIntegrationTime_5 : answerTo 0x03 5 0 0 0 = some (some ⟨.unknown, 255⟩, 0x1AC1, []) := by decide
/-- S6. -/
theorem test_setField_gain : answerTo 0x04 0 0xE7FF 3 11 = some (some ⟨.ok, 0x1800⟩, 0x1AC1, []) := by decide
/-- R84 corner case (c): bits shifted past bit 15 are dropped. -/
theorem test_setField_drops : answerTo 0x04 0 0xFFFF 3 15 = some (some ⟨.ok, 0x8000⟩, 0x1AC1, []) := by decide
/-- R85 worked example. -/
theorem test_powerOnWord : answerTo 0x05 0x1AC1 0 0 0 = some (some ⟨.ok, 0x1AC0⟩, 0x1AC1, []) := by decide
/-- S2: column 0 is gain 2.0, row 0 is 800 ms. -/
theorem test_selectConversionConstant : answerTo 0x08 0 0x0010 800 0 = some (some ⟨.ok, 36⟩, 0x1AC1, []) := by decide
/-- V54. -/
theorem test_selectConversionConstant_unknown :
    answerTo 0x08 0 0x0008 255 0 = some (some ⟨.unknown, 255⟩, 0x1AC1, []) := by decide
/-- V59: truncated, not rounded. -/
theorem test_rawToLux_truncates : answerTo 0x09 277 0x0010 800 0 = some (some ⟨.ok, 0⟩, 0x1AC1, []) := by decide
/-- V63: the product does not wrap. -/
theorem test_rawToLux_largest : answerTo 0x09 65535 0x0001 25 0 = some (some ⟨.ok, 120794⟩, 0x1AC1, []) := by decide
/-- V81. -/
theorem test_compensate_1843 : answerTo 0x0A 1843 0 0 0 = some (some ⟨.ok, 2072⟩, 0x1AC1, []) := by decide
/-- V88. -/
theorem test_compensate_largest : answerTo 0x0A 294568 0 0 0 = some (some ⟨.ok, 4294914468⟩, 0x1AC1, []) := by decide
/-- V65: at the threshold. -/
theorem test_measure_threshold : answerTo 0x0B 34723 0x0008 100 0 = some (some ⟨.ok, 1000⟩, 0x1AC1, []) := by decide
/-- V66: just above it. -/
theorem test_measure_above : answerTo 0x0B 34757 0x0008 100 0 = some (some ⟨.ok, 1076⟩, 0x1AC1, []) := by decide
/-- V101. -/
theorem test_setGain : seen (exec (.setGain 0x0010) (dev 0x1AC1 [good 0, good 0])) =
    some (some ⟨.ok, 0⟩, 0x0AC1, [.read 0, .write 0]) := by decide
/-- V100: the bytes, low half first. -/
theorem test_setGain_bytes : written (exec (.setGain 0x0002) (dev 0 [good 0, good 0])) = [[0x00, 0x18]] := by decide
/-- V107. -/
theorem test_getGain : seen (exec .getGain (dev 0x0AC1 [good 0])) = some (some ⟨.ok, 0x0010⟩, 0x0AC1, [.read 0]) := by
  decide
/-- V109. -/
theorem test_getGain_failed : seen (exec .getGain (dev 0x0AC1 [lost false])) =
    some (some ⟨.busError, 0⟩, 0x0AC1, [.read 0]) := by decide
/-- V111. -/
theorem test_setIntegrationTime : seen (exec (.setIntegrationTime 50) (dev 0x0B01 [good 0, good 0])) =
    some (some ⟨.ok, 0⟩, 0x0A01, [.read 0, .write 0]) := by decide
/-- V112. -/
theorem test_setIntegrationTime_rejected : seen (exec (.setIntegrationTime 150) (dev 0x1801 [])) =
    some (some ⟨.rejected, 0⟩, 0x1801, []) := by decide
/-- V113. -/
theorem test_getIntegrationTime : seen (exec .getIntegrationTime (dev 0x1B01 [good 0])) =
    some (some ⟨.ok, 25⟩, 0x1B01, [.read 0]) := by decide
/-- V115. -/
theorem test_getIntegrationTime_unknown : seen (exec .getIntegrationTime (dev 0xFFFF [good 0])) =
    some (some ⟨.unknown, 0x00FF⟩, 0xFFFF, [.read 0]) := by decide
/-- V116. -/
theorem test_powerOn : seen (exec .powerOn (dev 0x0001 [good 0, good 0])) =
    some (some ⟨.ok, 0⟩, 0x0000, [.read 0, .write 0, .wait 4]) := by decide
/-- V118 with a write that landed: no wait. -/
theorem test_powerOn_failed : seen (exec .powerOn (dev 0x0001 [good 0, lost true])) =
    some (some ⟨.busError, 0⟩, 0x0000, [.read 0, .write 0]) := by decide
/-- V121. -/
theorem test_readLight : seen (exec .readLight (dev 0x08C0 [good 10000, good 0, good 0])) =
    some (some ⟨.ok, 36⟩, 0x08C0, [.read 4, .read 0, .read 0]) := by decide
/-- V124. -/
theorem test_readLight_failed : seen (exec .readLight (dev 0x1300 [good 1000, lost false])) =
    some (some ⟨.busError, 0⟩, 0x1300, [.read 4, .read 0]) := by decide
/-- V126. -/
theorem test_begin : seen (exec .begin (dev 0x0001 [good 0, good 0, good 0])) =
    some (some ⟨.ok, 1⟩, 0x0000, [.read 0, .write 0, .wait 4, .probe]) := by decide
/-- V128. -/
theorem test_begin_failed : seen (exec .begin (dev 0x0001 [lost false])) =
    some (some ⟨.ok, 0⟩, 0x0001, [.read 0]) := by decide
/-- V130. -/
theorem test_reserved_code : answerTo 0x1F 0xFFFFFFFF 0xFFFF 0xFFFF 0xF =
    some (some ⟨.illegalOp, 0⟩, 0x1AC1, []) := by decide
/-- R84, R86 worked examples: the helper words. -/
theorem test_helper_words : gainWord 0x1AC1 0x0010 = (.ok, 0x0AC1) ∧ gainWord 0 0x0004 = (.rejected, 0) ∧
    integrationTimeWord 0x1801 25 = (.ok, 0x1B01) := by decide
/-- V50, two cells of the reference instance that no source cell fixes. -/
theorem test_convTableRef : convTableRef 3 0 = 288 ∧ convTableRef 4 2 = 4608 := by decide

/-! ## Witnesses: for each obligation with hypotheses, a state and operands that meet them -/

theorem unsupported_half : Unsupported 0x0004 := by intro b; simp [gains]
theorem unsupported_time_150 : UnsupportedTime 150 := by intro b; simp [times]
theorem reserved_selects_none (op : BitVec 5) (h : op = 0x06 ∨ op = 0x1F) : ∀ i, decode (Command.bare op) ≠ .ok i := by
  rcases h with rfl | rfl <;> intro i h <;> cases h

theorem witness_EncodeGainResult : (dev 0x1AC1 []).Idle := rfl
theorem witness_DecodeGainResult : (dev 0x1AC1 []).Idle := rfl
theorem witness_EncodeIntegrationTimeResult : (dev 0x1AC1 []).Idle := rfl
theorem witness_DecodeIntegrationTimeResult : (dev 0x1AC1 []).Idle := rfl
theorem witness_SetFieldResult : (dev 0x1AC1 []).Idle := rfl
theorem witness_PowerOnWordResult : (dev 0x1AC1 []).Idle := rfl
theorem witness_PinnedCellResults : (dev 0x1AC1 []).Idle := rfl
theorem witness_SentinelFedOnward : (dev 0x1AC1 []).Idle := rfl
theorem witness_OperationFrame : (dev 0x1AC1 []).Idle := rfl
theorem witness_PureOperationsDependOnOperandsAlone : (Instr.measure 1 2 3).group ≠ .bus ∧ (dev 0x1AC1 []).Idle := by decide
theorem witness_PolynomialIsPositiveAndIncreasing : ∃ p q : Lux, (294567 : Nat) < 294568 ∧ (dev 0 []).Idle ∧
    (1843 : Lux).toNat ≤ (294568 : Lux).toNat ∧ (294568 : Lux).toNat ≤ 294568 ∧
    exec (.compensate 1843) (dev 0 []) = .next (responded (dev 0 []) .ok p) ∧
    exec (.compensate 294568) (dev 0 []) = .next (responded (dev 0 []) .ok q) :=
  ⟨2072, 4294914468, by decide, rfl, by decide, by decide, rfl, rfl⟩
theorem witness_DecodeAndEncodeAgree : ∃ w v i, decode w = .ok i ∧ w.wellFormed = true ∧ w.sameOperands v = true ∧ w ≠ v :=
  ⟨⟨0x04, 0xFFFF, 0xE7FF, 7, 15⟩, ⟨0x04, 0x0001FFFF, 0xE7FF, 7, 15⟩, _, rfl, by decide, by decide, by decide⟩
theorem witness_EachCodeSelectsItsOperation : decode ⟨0b01011, 0, 0, 0, 0⟩ = .ok (.measure 0 0 0) := rfl
theorem witness_ReservedCodesAnswerIllegalOp : ∃ (s : State) (w : Command) (rest : List Command),
    s.Idle ∧ s.commands = w :: rest ∧ ∀ i, decode w ≠ .ok i :=
  ⟨{ dev 0 [] with commands := [Command.bare 0x06] }, _, _, rfl, rfl, reserved_selects_none _ (.inl rfl)⟩
theorem witness_StepRunsTheDecodedOperation : ∃ (s u : State) (w : Command) (rest : List Command) (i : Instr), s.commands = w :: rest ∧ decode w = .ok i ∧
    u.commands = [] :=
  ⟨{ dev 0 [] with commands := [⟨0x15, 0, 0, 0, 0⟩] }, dev 0 [], _, _, .readLight, rfl, rfl, rfl⟩
theorem witness_TableWordRunsNext : decodeTableWord 8 0x16 = some .begin := rfl
theorem witness_StepsAreRefusedOnlyWhileBusy : (busy [Command.bare 0]).seq ≠ none ∧ (busy [Command.bare 0]).commands ≠ [] ∧
    (busy []).commands = [] := by decide
theorem witness_BusyCoreTakesNoCommand : (busy []).seq = some ⟨.getGain, 0, []⟩ ∧ (busy []).commands = [] := ⟨rfl, rfl⟩
theorem witness_HelperWords : (0x0001, 2) ∈ gains ∧ Unsupported 0x0004 ∧ (25, 12) ∈ times ∧ UnsupportedTime 150 :=
  ⟨by decide, unsupported_half, by decide, unsupported_time_150⟩
theorem witness_RoundTripLaw : (dev 0 []).Idle ∧ (0x0010, 1) ∈ gains ∧ (50, 8) ∈ times := by decide
theorem witness_FieldIsolationLaw : (0x0002, 3) ∈ gains ∧ (25, 12) ∈ times := by decide
theorem witness_SelectConversionConstantResult : (dev 0 []).Idle ∧ (0x0001, 3) ∈ columns ∧ (25, 5) ∈ rows ∧
    Unsupported 0x0004 ∧ UnsupportedTime 150 :=
  ⟨rfl, by decide, by decide, unsupported_half, unsupported_time_150⟩
theorem witness_RawToLuxResult : (dev 0 []).Idle ∧ (0x0010, 0) ∈ columns ∧ (800, 0) ∈ rows ∧ Unsupported 0x0004 :=
  ⟨rfl, by decide, by decide, unsupported_half⟩
theorem witness_RawToLuxMonotone : ∃ lux lux' : Lux,
    (dev 0 []).Idle ∧ (277 : Word).toNat ≤ (278 : Word).toNat ∧
    exec (.rawToLux 277 0x0010 800) (dev 0 []) = .next (responded (dev 0 []) .ok lux) ∧
    exec (.rawToLux 278 0x0010 800) (dev 0 []) = .next (responded (dev 0 []) .ok lux') :=
  ⟨0, 1, rfl, by decide, rfl, rfl⟩
theorem witness_CompensateResult : (dev 0 []).Idle ∧ (294568 : Lux).toNat ≤ 294568 := by decide
theorem witness_CompensateRunsBeyondItsRange : (dev 0 []).Idle ∧ 294568 < (294569 : Lux).toNat := by decide
theorem witness_MeasureResult : (dev 0 []).Idle ∧ Unsupported 0x0004 ∧ ¬ (Unsupported 0x0008 ∨ UnsupportedTime 100) ∧
    exec (.rawToLux 34723 0x0008 100) (dev 0 []) = .next (responded (dev 0 []) .ok 1000) ∧
    exec (.rawToLux 34757 0x0008 100) (dev 0 []) = .next (responded (dev 0 []) .ok 1001) := by
  refine ⟨rfl, unsupported_half, ?_, rfl, rfl⟩
  rintro (h | h)
  · exact h 0 (by decide)
  · exact h 0 (by decide)
theorem witness_NoResultBetweenThresholdAndJump :
    ∀ (row : Fin 6) (col : Fin 4), ((fun _ _ => 44948 : Fin 6 → Fin 4 → Word) row col).toNat ≤ 44948 := by decide
theorem witness_EngineRanges : (∀ row col, (convTableGK row col).toNat ≤ 18432) ∧
    rawToLux convTableGK 65535 0x0001 25 = some 120794 := by decide
theorem witness_UnknownPropagates : ∃ s : State, s.Idle ∧ Unsupported 0x0004 ∧ s.session = .single ∧
    (∀ k, k < 3 → (s.answer k).completion = .ok) ∧
    (settingWord s 2).extractLsb' 6 4 ∉ ([0, 1, 2, 3, 8, 12] : List (BitVec 4)) :=
  ⟨dev 0x0140 [good 5000, good 0, good 0], rfl, unsupported_half, rfl, by decide, by decide⟩
/-- Each of the three outcomes of a setter, and the rejected values. -/
theorem witness_SetGainResult : (dev 0 []).Idle ∧ (dev 0 []).session = .single ∧ Unsupported 0x0004 ∧
    (0x0001, 2) ∈ gains ∧
    (((dev 0 [good 0, good 0]).answer 0).completion = .ok ∧ ((dev 0 [good 0, good 0]).answer 1).completion = .ok) ∧
    ((dev 0 [good 0, lost true]).answer 1).completion = .failed ∧
    ((dev 0 [lost false]).answer 0).completion = .failed :=
  ⟨rfl, rfl, unsupported_half, by decide, by decide, by decide, by decide⟩
theorem witness_GetGainResult : (dev 0 []).Idle ∧ (dev 0 []).session = .single ∧
    ((dev 0 [good 0]).answer 0).completion = .ok ∧ ((dev 0 [lost true]).answer 0).completion = .failed := by decide
theorem witness_SetIntegrationTimeResult : (dev 0 []).Idle ∧ (dev 0 []).session = .single ∧ UnsupportedTime 150 ∧
    (25, 12) ∈ times ∧
    (((dev 0 [good 0, good 0]).answer 0).completion = .ok ∧ ((dev 0 [good 0, good 0]).answer 1).completion = .ok) ∧
    ((dev 0 [good 0, lost false]).answer 1).completion = .failed ∧
    ((dev 0 [lost false]).answer 0).completion = .failed :=
  ⟨rfl, rfl, unsupported_time_150, by decide, by decide, by decide, by decide⟩
theorem witness_GetIntegrationTimeResult : (dev 0xFFFF []).Idle ∧ (dev 0xFFFF []).session = .single ∧
    ((dev 0xFFFF [good 0]).answer 0).completion = .ok ∧ ((dev 0 [lost true]).answer 0).completion = .failed := by decide
theorem witness_PowerOnResult : (dev 1 []).Idle ∧ (dev 1 []).session = .single ∧
    (((dev 1 [good 0, good 0]).answer 0).completion = .ok ∧ ((dev 1 [good 0, good 0]).answer 1).completion = .ok) ∧
    ((dev 1 [good 0, lost true]).answer 1).completion = .failed ∧
    ((dev 1 [lost false]).answer 0).completion = .failed := by decide
/-- A recognised and an unrecognised time, and a failure at each of the three reads. -/
theorem witness_ReadLightResult : ∃ s u : State, s.Idle ∧ s.session = .single ∧ u.Idle ∧ u.session = .single ∧
    (∀ k, k < 3 → (s.answer k).completion = .ok) ∧ (∀ k, k < 3 → (u.answer k).completion = .ok) ∧
    (0x0001, ((settingWord s 1).extractLsb' 11 2).setWidth 16) ∈ gains ∧
    (25, ((settingWord s 2).extractLsb' 6 4).setWidth 16) ∈ times ∧
    (settingWord u 2).extractLsb' 6 4 ∉ ([0, 1, 2, 3, 8, 12] : List (BitVec 4)) ∧
    ((dev 0 [good 9, good 0, lost true]).answer 2).completion = .failed ∧
    ((dev 0 [good 9, lost true]).answer 1).completion = .failed ∧ ((dev 0 [lost true]).answer 0).completion = .failed :=
  ⟨dev 0x1300 [good 1000, good 0, good 0], dev 0x0140 [good 5000, good 0, good 0], by decide⟩
/-- A device that is present, one that is absent, and a failure at each transaction. -/
theorem witness_BeginResult : (dev 1 []).Idle ∧ (dev 1 []).session = .single ∧
    ((dev 1 [good 0, good 0, good 0]).answer 0).completion = .ok ∧
    ((dev 1 [good 0, good 0, good 0]).answer 1).completion = .ok ∧
    ((dev 1 [good 0, good 0, good 0]).answer 2).completion = .ok ∧
    ((dev 1 [good 0, good 0, lost false]).answer 2).completion ≠ .never ∧
    ((dev 1 [good 0, lost true]).answer 1).completion = .failed ∧
    ((dev 1 [lost false]).answer 0).completion = .failed := by decide
theorem witness_RegisterBytesOnTheWire : (∃ t, memRead .setting (dev 0x1AC1 [good 0]) = .ok (0xC1, 0x1A) t) ∧
    (∃ t, memRead .setting (dev 0x1AC1 [lost false]) = .failed t) := ⟨⟨_, rfl⟩, ⟨_, rfl⟩⟩
theorem witness_UnfinishedTransactionLeavesCoreBusy : (dev 0 []).Idle ∧ (dev 0 []).session = .single ∧
    Instr.group .powerOn = .bus ∧ ((dev 0 [hung]).answer 0).completion = .never ∧
    ((dev 0 [good 0, hung]).answer 0).completion = .ok ∧ ((dev 0 [good 0, hung]).answer 1).completion = .never ∧
    ((dev 0 [good 0, good 0, hung]).answer 1).completion = .ok ∧
    ((dev 0 [good 0, good 0, hung]).answer 2).completion = .never ∧ ¬ Unsupported 0x0008 ∧ ¬ UnsupportedTime 100 :=
  ⟨rfl, rfl, rfl, rfl, rfl, rfl, rfl, rfl, fun h => h 0 (by decide), fun h => h 0 (by decide)⟩
/-- A sequence that runs to its end, one that stops at a failure, and a REJECTED setter. -/
theorem witness_BusActivityFollowsTheTable : (∃ t, exec .begin (dev 1 [good 0, good 0, good 0]) = .next t) ∧
    (∃ t, exec .begin (dev 1 [lost false]) = .next t) ∧ (∃ t, exec (.setGain 4) (dev 1 []) = .next t) :=
  ⟨⟨_, rfl⟩, ⟨_, rfl⟩, ⟨_, rfl⟩⟩
theorem witness_FailedTransactionIsReported : (∃ t es, exec .getGain (dev 0 [lost false]) = .next t ∧
      t.bus = (dev 0 [lost false]).bus ++ es) ∧
    (∃ t es, exec .begin (dev 0 [hung]) = .next t ∧ t.bus = (dev 0 [hung]).bus ++ es) :=
  ⟨⟨_, _, rfl, rfl⟩, ⟨_, _, rfl, rfl⟩⟩
/-- Both ways of being quiet. -/
theorem witness_StepsKeepSettingFieldsApart : ∃ (s u t : State) (w : Command) (rest : List Command), Quiet s ∧ u.settleReads = .any ∧ Quiet u ∧
    s.commands = w :: rest ∧ decode w = .ok (.setGain 2) ∧ step s = .next t :=
  ⟨{ dev 0x1AC1 [good 0, good 0] with commands := [⟨0x10, 0, 2, 0, 0⟩] }, { dev 0x1AC0 [] with settleReads := .any }, _,
    _, _, ⟨rfl, .inl rfl⟩, rfl, ⟨rfl, .inr ⟨by decide, rfl⟩⟩, rfl, rfl, rfl⟩
theorem witness_RecognisedTimeStaysRecognised : ∃ s t : State, Quiet s ∧ step s = .next t ∧
    s.setting.extractLsb' 6 4 ∈ ([0, 1, 2, 3, 8, 12] : List (BitVec 4)) :=
  ⟨{ dev 0x1300 [good 0, good 0] with commands := [⟨0x12, 0, 0, 50, 0⟩] }, _, ⟨rfl, .inl rfl⟩, rfl, by decide⟩
/-- A foreign write between the read and the write; one between the two SETTING reads of `read_light`, with recognised
and with unrecognised time bits; and one before the first transaction. -/
theorem witness_InterleavedWriteIsLost : ∃ s u v : State,
    (s.Idle ∧ s.session = .shared ∧ s.settleReads = .storage ∧ (s.answer 0).completion = .ok ∧
      (s.answer 1).completion = .ok ∧ (s.answer 0).foreign = none ∧ (s.answer 1).foreign = some 0xFFFF) ∧
    (u.Idle ∧ u.session = .shared ∧ u.settleReads = .storage ∧ (u.answer 0).completion = .ok ∧
      (u.answer 1).completion = .ok ∧ (u.answer 2).completion = .ok ∧
      (0x0001, ((((u.answer 1).foreign.getD ((u.answer 0).foreign.getD u.setting)).extractLsb' 11 2).setWidth 16)) ∈
        gains ∧
      (u.answer 2).foreign = some 0x0300 ∧ (25, ((0x0300 : Word).extractLsb' 6 4).setWidth 16) ∈ times) ∧
    (v.Idle ∧ v.session = .shared ∧ v.settleReads = .storage ∧ (v.answer 0).foreign = some 0x1000 ∧
      (v.answer 0).completion = .ok ∧ (v.answer 1).completion = .ok ∧ (v.answer 2).completion = .ok ∧
      (v.answer 2).foreign = some 0x0140 ∧
      (0x0140 : Word).extractLsb' 6 4 ∉ ([0, 1, 2, 3, 8, 12] : List (BitVec 4))) :=
  ⟨{ dev 0x1AC1 [good 0, after 0xFFFF] with session := .shared },
    { dev 0x1000 [good 1000, good 0, after 0x0300] with session := .shared },
    { dev 0xFFFF [after 0x1000, good 0, after 0x0140] with session := .shared }, by decide⟩
/-- The lost update, worked by hand from R120 and R166: 0x1AC1 is read, the other master's 0xFFFF is lost. -/
theorem test_lost_update :
    seen (exec (.setGain 0x0010) { dev 0x1AC1 [good 0, after 0xFFFF] with session := .shared }) =
      some (some ⟨.ok, 0⟩, 0x0AC1, [.read 0, .write 0]) := by decide
/-- A present and an absent device with a foreign write before the probe, and a failure at each transaction. -/
theorem witness_BeginResultInSharedSession : ∃ s u v w : State,
    (s.Idle ∧ s.session = .shared ∧ s.settleReads = .storage ∧ (s.answer 0).completion = .ok ∧
      (s.answer 1).completion = .ok ∧ (s.answer 1).foreign = some 0xFFFF ∧ (s.answer 2).completion = .ok ∧
      (s.answer 2).foreign = some 0x1301) ∧
    (u.Idle ∧ u.session = .shared ∧ u.settleReads = .storage ∧ (u.answer 0).completion = .ok ∧
      (u.answer 1).completion = .ok ∧ (u.answer 2).completion = .failed) ∧
    (v.Idle ∧ v.session = .shared ∧ v.settleReads = .storage ∧ (v.answer 0).completion = .ok ∧
      (v.answer 1).completion = .failed) ∧
    (w.Idle ∧ w.session = .shared ∧ w.settleReads = .storage ∧ (w.answer 0).completion = .failed) :=
  ⟨{ dev 1 [good 0, after 0xFFFF, after 0x1301] with session := .shared },
    { dev 1 [good 0, good 0, lost false] with session := .shared },
    { dev 1 [good 0, lost true] with session := .shared },
    { dev 1 [lost false] with session := .shared }, by decide⟩
theorem witness_PowerOnSettlesTheDevice : ∃ s t u : State, s.Idle ∧ s.session = .single ∧
    (exec .powerOn s = .next t ∧ t.response = some ⟨.ok, 0⟩) ∧ (exec .begin s = .next u ∧ u.response = some ⟨.ok, 1⟩) :=
  ⟨dev 1 [good 0, good 0, good 0], _, _, rfl, rfl, ⟨rfl, rfl⟩, ⟨rfl, rfl⟩⟩
theorem witness_ResetLeavesIdleCoreAndDevice : (dev 0 []).Idle ∧ (busy []).seq = some ⟨.getGain, 0, []⟩ := ⟨rfl, rfl⟩
/-- A state with the invariant whose next step is a whole `begin`. -/
theorem witness_StepKeepsTheInvariant : ∃ s t : State, s.Inv ∧ step s = .next t ∧ t.bus.length = 4 := by
  refine ⟨{ dev 1 [good 0, good 0, good 0] with commands := [Command.bare 0x16] }, _, ?_, rfl, rfl⟩
  constructor <;> intro x h <;> simp [dev] at h

end Sys2Proof.Tests
end

section
/-! PROOFS of the state family: what every operation leaves unchanged (O42) and how a step may change SETTING while
nothing else disturbs it (O43). Both go through one reading of `exec` (an operation is pure or runs a `Sequence`) and
through rules for where each sequence of transactions can end. -/

open Sys2Proof.Claims

namespace Sys2Proof.Machine

variable {s t : State} {i : Instr} {run : State → Tx Response} {P : State → Prop}

/-! ## What an operation is: a response, or a sequence of transactions -/

/-- The sequence of transactions a bus operation runs once it is accepted (R120 to R126). -/
inductive Sequence : Instr → (State → Tx Response) → Prop
  | setGain {b : GainQ} {x : Gain} (h : Gain.ofQ b = some x) :
      Sequence (.setGain b) (writeField gainKeep x.bits gainShift)
  | getGain : Sequence .getGain getGainSequence
  | setIntegrationTime {c : Millis} {x : ITime} (h : ITime.ofMs c = some x) :
      Sequence (.setIntegrationTime c) (writeField itKeep x.bits itShift)
  | getIntegrationTime : Sequence .getIntegrationTime getIntegrationTimeSequence
  | powerOn : Sequence .powerOn fun t => (powerOnSequence t).bind fun _ u => .ok (respOk 0) u
  | readLight : Sequence .readLight readLightSequence
  | begin : Sequence .begin beginSequence

/-- Everything `exec` can do; a setter whose operand is unsupported is pure (R120, R122). -/
theorem exec_eq_pureOp_or_busOp (i : Instr) (s : State) :
    (∃ r, exec i s = pureOp r s) ∨ ∃ run, Sequence i run ∧ exec i s = busOp i run s := by
  cases i with
  | encodeGain | decodeGain | encodeIntegrationTime | decodeIntegrationTime | setField | powerOnWord
  | selectConversionConstant | rawToLux | compensate | measure => exact .inl ⟨_, rfl⟩
  | getGain => exact .inr ⟨_, .getGain, rfl⟩
  | getIntegrationTime => exact .inr ⟨_, .getIntegrationTime, rfl⟩
  | powerOn => exact .inr ⟨_, .powerOn, rfl⟩
  | readLight => exact .inr ⟨_, .readLight, rfl⟩
  | begin => exact .inr ⟨_, .begin, rfl⟩
  | setGain b =>
    cases h : Gain.ofQ b with
    | none => exact .inl ⟨respRejected, by simp [exec, execSetGain, h]⟩
    | some x => exact .inr ⟨_, .setGain h, by simp [exec, execSetGain, h]⟩
  | setIntegrationTime c =>
    cases h : ITime.ofMs c with
    | none => exact .inl ⟨respRejected, by simp [exec, execSetIntegrationTime, h]⟩
    | some x => exact .inr ⟨_, .setIntegrationTime h, by simp [exec, execSetIntegrationTime, h]⟩

/-- The two ways an operation answers a next state. -/
theorem exec_next_cases (h : exec i s = .next t) :
    (∃ r, t = s.respond r) ∨ ∃ run, Sequence i run ∧ t = conclude (run (s.accept i)) := by
  obtain ⟨r, he⟩ | ⟨run, hrun, he⟩ := exec_eq_pureOp_or_busOp i s <;> rw [he] at h
  · exact .inl ⟨r, (whenIdle_eq_next.mp h).2.symm⟩
  · exact .inr ⟨run, hrun, (whenIdle_eq_next.mp h).2.symm⟩

theorem exec_idle_exists (hs : s.Idle) (i : Instr) : ∃ t, exec i s = .next t := by
  obtain ⟨r, he⟩ | ⟨run, -, he⟩ := exec_eq_pureOp_or_busOp i s
  · exact ⟨_, he.trans (pureOp_idle hs)⟩
  · exact ⟨_, he.trans (busOp_idle hs)⟩

/-- The ways a step answers a next state: nothing was presented, the answer is a response without more (a reserved
code), or the presented command's operation took place. -/
theorem step_next_cases (h : step s = .next t) :
    t = s ∨ ∃ w rest, s.commands = w :: rest ∧
      ((∃ r, t = State.respond { s with commands := rest } r) ∨
        ∃ i, decode w = .ok i ∧ exec i { s with commands := rest } = .next t) := by
  cases hc : s.commands with
  | nil =>
    rw [step, fetch_nil hc] at h
    cases h
    exact .inl rfl
  | cons w rest =>
    rw [step, fetch_cons hc] at h
    refine .inr ⟨w, rest, rfl, ?_⟩
    cases hd : decode w with
    | error e =>
      simp only [hd] at h
      exact .inl ⟨_, (whenIdle_eq_next.mp h).2.symm⟩
    | ok i =>
      simp only [hd] at h
      exact .inr ⟨i, rfl, h⟩

/-! ## Where a sequence can end -/

/-- The state a transaction, or a sequence of them, ends in. -/
def Tx.final {α : Type} : Tx α → State
  | .ok _ t | .failed t | .never t => t

theorem Tx.Ends.imp {α : Type} {Q : State → Prop} {x : Tx α} (hx : x.Ends P) (h : ∀ t, P t → Q t) :
    x.Ends Q := by
  cases x <;> exact h _ hx

theorem Tx.Ends.final {α : Type} {x : Tx α} (h : x.Ends P) : P x.final := by
  cases x <;> exact h

section
variable (x : Tx Response)

@[simp] theorem conclude_commands : (conclude x).commands = x.final.commands := by cases x <;> rfl
@[simp] theorem conclude_settleReads : (conclude x).settleReads = x.final.settleReads := by cases x <;> rfl
@[simp] theorem conclude_session : (conclude x).session = x.final.session := by cases x <;> rfl
@[simp] theorem conclude_setting : (conclude x).setting = x.final.setting := by cases x <;> rfl
@[simp] theorem conclude_settling : (conclude x).settling = x.final.settling := by cases x <;> rfl
@[simp] theorem conclude_register (addr : Byte) : (conclude x).register addr = x.final.register addr := by
  cases x <;> rfl

end

theorem regRead16_ends {r : ReadReg} (hok : P (afterRead r s)) (hlost : ∀ d, P (afterReadLost r d s)) :
    (regRead16 r s).Ends P := by
  rw [regRead16_eq]
  split
  · exact hok
  · exact hlost _
  · exact hlost _

theorem regWrite16_ends {v : Word} (h : P (afterWrite v s)) (hadv : ∀ t, P t → P (t.advance [])) :
    (regWrite16 v s).Ends P := by
  rw [regWrite16_eq]
  split
  · exact hadv _ h
  · exact h
  · exact h

theorem probe_ends (h : ∀ e, P (s.arrive.record e)) (hadv : ∀ t, P t → P (t.advance [])) : (probe s).Ends P := by
  rw [probe_eq]
  split
  · exact hadv _ (h _)
  · exact hadv _ (h _)
  · exact h _

/-- The read-modify-write ends either after a lost read or after the write of the word computed from the read one. -/
theorem updateSetting_ends {f : Word → Word} (hread : ∀ d, P (afterReadLost .setting d s))
    (hwrite : P (afterWrite (f (settingReply s)) (afterRead .setting s))) (hadv : ∀ t, P t → P (t.advance [])) :
    (updateSetting f s).Ends P := by
  rw [updateSetting, regRead16_eq]
  cases (s.answer 0).completion with
  | ok => exact regWrite16_ends hwrite hadv
  | failed => exact hread _
  | never => exact hread _

theorem writeField_ends {keep fb : Word} {sh : BitVec 4}
    (h : (updateSetting (fun r => setField r keep fb sh) s).Ends P) : (writeField keep fb sh s).Ends P :=
  h.bind fun _ _ h1 => h1

theorem powerOnSequence_ends (h : (updateSetting powerOnWord s).Ends P) (hw : ∀ t, P t → P (wait 4 t)) :
    (powerOnSequence s).Ends P :=
  h.bind fun _ t h1 => hw t h1

theorem beginSequence_ends (h : (powerOnSequence s).Ends P) (hp : ∀ t, P t → (probe t).Ends P) :
    (beginSequence s).Ends P := by
  rw [beginSequence]
  cases hx : powerOnSequence s with
  | ok v t =>
    rw [hx] at h
    exact (hp t h).bind fun _ _ h1 => h1
  | failed t => rwa [hx] at h
  | never t => rwa [hx] at h

/-! ## What a sequence leaves unchanged -/

theorem Sequence.untouched (h : Sequence i run) : (run s).Ends (Untouched s) := by
  have h0 := Untouched.refl s
  cases h with
  | setGain | setIntegrationTime => exact writeField_ends (updateSetting_untouched _ h0)
  | getGain | getIntegrationTime => exact (regRead16_untouched _ h0).bind fun _ _ h1 => h1
  | powerOn => exact (powerOnSequence_untouched h0).bind fun _ _ h1 => h1
  | readLight => exact readLightSequence_untouched h0
  | begin => exact beginSequence_untouched h0

@[simp] theorem afterReadLost_ambientLight (r : ReadReg) (d : Completion) :
    (afterReadLost r d s).ambientLight = s.ambientLight := by
  simp [afterReadLost]

@[simp] theorem afterRead_setting_ambientLight : (afterRead .setting s).ambientLight = s.ambientLight := by
  simp [afterRead, deviceAfterRead]

@[simp] theorem afterWrite_ambientLight (v : Word) : (afterWrite v s).ambientLight = s.ambientLight := by
  unfold afterWrite
  split <;> simp

theorem updateSetting_ambientLight (f : Word → Word) :
    (updateSetting f s).Ends (·.ambientLight = s.ambientLight) :=
  updateSetting_ends (by simp) (by simp) fun _ h => h

theorem powerOnSequence_ambientLight : (powerOnSequence s).Ends (·.ambientLight = s.ambientLight) :=
  powerOnSequence_ends (updateSetting_ambientLight _) fun _ h => h

/-- Only `read_light` reads AMBIENT_LIGHT_DATA (R127), and only that read puts a new sample there (R20). -/
theorem Sequence.ambientLight (h : Sequence i run) (hi : i ≠ .readLight) :
    (run s).Ends (·.ambientLight = s.ambientLight) := by
  cases h with
  | setGain | setIntegrationTime => exact writeField_ends (updateSetting_ambientLight _)
  | getGain | getIntegrationTime => exact (regRead16_ends (by simp) (by simp)).bind fun _ _ h1 => h1
  | powerOn => exact powerOnSequence_ambientLight.bind fun _ _ h1 => h1
  | readLight => exact absurd rfl hi
  | begin => exact beginSequence_ends powerOnSequence_ambientLight fun _ h => probe_ends (by simp [h]) fun _ h1 => h1

/-- SETTING, the settling interval and the launch premises stand as in `s`. -/
structure SettingKept (s t : State) : Prop where
  setting : t.setting = s.setting
  settling : t.settling = s.settling
  settleReads : t.settleReads = s.settleReads
  session : t.session = s.session

theorem SettingKept.refl (s : State) : SettingKept s s := ⟨rfl, rfl, rfl, rfl⟩

theorem SettingKept.trans {u : State} (h : SettingKept s t) (k : SettingKept t u) : SettingKept s u :=
  ⟨k.setting.trans h.setting, k.settling.trans h.settling, k.settleReads.trans h.settleReads,
    k.session.trans h.session⟩

theorem afterRead_settingKept (hs : s.session = .single) (r : ReadReg) : SettingKept s (afterRead r s) := by
  constructor <;> simp [arrive_setting hs, arrive_settling hs]

theorem afterReadLost_settingKept (hs : s.session = .single) (r : ReadReg) (d : Completion) :
    SettingKept s (afterReadLost r d s) := by
  constructor <;> simp [afterReadLost, arrive_setting hs, arrive_settling hs]

theorem regRead16_settingKept (hs : s.session = .single) (r : ReadReg) (h : SettingKept s t) :
    (regRead16 r t).Ends (SettingKept s) :=
  have ht := h.session.trans hs
  regRead16_ends (h.trans (afterRead_settingKept ht r)) fun d => h.trans (afterReadLost_settingKept ht r d)

theorem readLightSequence_settingKept (hs : s.session = .single) : (readLightSequence s).Ends (SettingKept s) :=
  (regRead16_settingKept hs _ (.refl s)).bind fun _ _ h1 =>
    (regRead16_settingKept hs _ h1).bind fun _ _ h2 => (regRead16_settingKept hs _ h2).bind fun _ _ h3 => h3

/-- A sequence without a write leaves SETTING alone while no other master writes it (R43, R127). -/
theorem Sequence.settingKept (h : Sequence i run) (hs : s.session = .single) (hp : i ≠ .powerOn) (hb : i ≠ .begin)
    (hg : ∀ g, i ≠ .setGain g) (ht : ∀ m, i ≠ .setIntegrationTime m) : (run s).Ends (SettingKept s) := by
  cases h with
  | setGain => exact absurd rfl (hg _)
  | setIntegrationTime => exact absurd rfl (ht _)
  | powerOn => exact absurd rfl hp
  | begin => exact absurd rfl hb
  | getGain | getIntegrationTime => exact (regRead16_settingKept hs _ (.refl s)).bind fun _ _ h1 => h1
  | readLight => exact readLightSequence_settingKept hs

/-- The device registers by address: SETTING and the sample are the only ones an operation can change (R31, R127). -/
theorem Untouched.register (h : Untouched s t) {addr : Byte} (h0 : addr ≠ 0x00)
    (h4 : addr = 0x04 → t.ambientLight = s.ambientLight) : t.register addr = s.register addr := by
  unfold State.register
  split
  case h_1 ha => exact absurd (BitVec.eq_of_toNat_eq ha) h0
  case h_5 ha => exact congrArg some (h4 (BitVec.eq_of_toNat_eq ha))
  all_goals simp [h.hThresh, h.lThresh, h.powerSave, h.whiteLight, h.interrupt]

/-! ## What an operation writes back into SETTING -/

/-- What SETTING holds once operation `i` has run to its end on a device that held `r`: `r` itself for an operation that
writes nothing (R86, R87, R124). -/
def settingUpdate (i : Instr) (r : Word) : Word :=
  match i with
  | .setGain b => (gainWord r b).2
  | .setIntegrationTime c => (integrationTimeWord r c).2
  | .powerOn | .begin => powerOnWord r
  | _ => r

theorem settingUpdate_setGain {b : GainQ} {x : Gain} {r : Word} (h : Gain.ofQ b = some x) :
    settingUpdate (.setGain b) r = setField r gainKeep x.bits gainShift := by
  change (gainWord r b).2 = _
  simp [gainWord, h]

theorem settingUpdate_setIntegrationTime {c : Millis} {x : ITime} {r : Word} (h : ITime.ofMs c = some x) :
    settingUpdate (.setIntegrationTime c) r = setField r itKeep x.bits itShift := by
  change (integrationTimeWord r c).2 = _
  simp [integrationTimeWord, h]

/-- Bits that the keep-mask keeps stay, if the inserted field bits lie outside the keep-mask (R54). -/
theorem setField_and {keep v m : Word} {sh : BitVec 4} (r : Word) (hv : (v <<< sh.toNat) &&& keep = 0)
    (hm : keep &&& m = m) : setField r keep v sh &&& m = r &&& m := by
  have hvm : (v <<< sh.toNat) &&& m = 0 := by
    rw [← hm, ← BitVec.and_assoc, hv]
    exact BitVec.zero_and
  simp [setField, insertField, BitVec.and_or_distrib_right, BitVec.and_assoc, hm, hvm]

theorem Gain.bits_outside_gainKeep (x : Gain) : (x.bits <<< gainShift.toNat) &&& gainKeep = 0 := by
  cases x <;> decide

theorem ITime.bits_outside_itKeep (x : ITime) : (x.bits <<< itShift.toNat) &&& itKeep = 0 := by
  cases x <;> decide

theorem gainWord_and {m : Word} (r : Word) (b : GainQ) (hm : gainKeep &&& m = m) :
    (gainWord r b).2 &&& m = r &&& m := by
  unfold gainWord
  split
  · exact setField_and r (Gain.bits_outside_gainKeep _) hm
  · rfl

theorem integrationTimeWord_and {m : Word} (r : Word) (c : Millis) (hm : itKeep &&& m = m) :
    (integrationTimeWord r c).2 &&& m = r &&& m := by
  unfold integrationTimeWord
  split
  · exact setField_and r (ITime.bits_outside_itKeep _) hm
  · rfl

/-- Each field's operation changes that field only (R18): the bits `m` stay if the keep-mask of the field that `i`
writes keeps them. -/
theorem settingUpdate_and {m : Word} (r : Word) (hg : ∀ g, i = .setGain g → gainKeep &&& m = m)
    (ht : ∀ c, i = .setIntegrationTime c → itKeep &&& m = m)
    (hp : i = .powerOn ∨ i = .begin → sdKeep &&& m = m) :
    settingUpdate i r &&& m = r &&& m := by
  cases i with
  | setGain b => exact gainWord_and r b (hg _ rfl)
  | setIntegrationTime c => exact integrationTimeWord_and r c (ht _ rfl)
  | powerOn => exact setField_and r (by decide) (hp (.inl rfl))
  | begin => exact setField_and r (by decide) (hp (.inr rfl))
  | _ => rfl

theorem sdBit_powerOnWord (r : Word) : sdBit (powerOnWord r) = false := by
  simp [sdBit, powerOnWord, setField, insertField, sdKeep]

theorem sdBit_eq_of_and_one {r r' : Word} (h : r' &&& 1 = r &&& 1) : sdBit r' = sdBit r := by
  simpa [sdBit] using congrArg (·.getLsbD 0) h

theorem sdBit_settingUpdate (r : Word) (hp : i ≠ .powerOn) (hb : i ≠ .begin) :
    sdBit (settingUpdate i r) = sdBit r :=
  sdBit_eq_of_and_one <| settingUpdate_and r (fun _ _ => by decide) (fun _ _ => by decide)
    fun h => (h.elim hp hb).elim

/-- No operation sets the shutdown bit (R124). -/
theorem sdBit_of_settingUpdate {r : Word} (h : sdBit (settingUpdate i r) = true) : sdBit r = true := by
  by_cases hi : i = .powerOn ∨ i = .begin
  · obtain rfl | rfl := hi <;> exact absurd h (Bool.eq_false_iff.mp (sdBit_powerOnWord r))
  · rw [not_or] at hi
    rwa [sdBit_settingUpdate r hi.1 hi.2] at h

/-! ## SETTING while nothing disturbs it -/

theorem SettingKept.quiet (h : SettingKept s t) (hq : Quiet s) : Quiet t := by
  rw [Quiet, h.session, h.settleReads, h.setting, h.settling]
  exact hq

/-- A read of SETTING returns what is stored. -/
theorem settingReply_of_quiet (hq : Quiet s) : settingReply s = s.setting := by
  obtain ⟨hs, h | ⟨hsd, hset⟩⟩ := hq
  · simp [settingReply, deviceReply, arrive_single hs, h]
  · have hsd' : sdBit s.setting = false := hsd
    simp [settingReply, deviceReply, arrive_single hs, State.powered, hsd', hset]

/-- SETTING takes a word that does not set SD: no settling interval begins on a device that was powered on. -/
theorem storeSetting_quiet {v : Word} (hq : Quiet s) (hv : sdBit v = true → sdBit s.setting = true) :
    Quiet (s.storeSetting v) := by
  obtain ⟨hs, h | ⟨hsd, hset⟩⟩ := hq
  · exact ⟨hs, .inl h⟩
  · have hsd' : sdBit s.setting = false := hsd
    have hv' : sdBit v = false := by simpa [hsd'] using hv
    exact ⟨hs, .inr ⟨hv', by simp [hset, hsd']⟩⟩

theorem wait_quiet (ms : Nat) (hq : Quiet s) : Quiet (wait ms s) :=
  ⟨hq.1, hq.2.imp_right fun h => ⟨h.1, by simp [h.2]⟩⟩

/-- Nothing disturbs SETTING, and it holds one of the words `v` and `w`. -/
structure QuietHolding (v w : Word) (t : State) : Prop where
  quiet : Quiet t
  setting : t.setting = v ∨ t.setting = w

section
variable {v w : Word}

theorem SettingKept.quietHolding (h : SettingKept s t) (hq : Quiet s) : QuietHolding s.setting w t :=
  ⟨h.quiet hq, .inl h.setting⟩

theorem QuietHolding.of_settingKept {u : State} (h : QuietHolding v w t) (k : SettingKept t u) :
    QuietHolding v w u :=
  ⟨k.quiet h.quiet, by rw [k.setting]; exact h.setting⟩

theorem QuietHolding.wait (h : QuietHolding v w t) (ms : Nat) : QuietHolding v w (wait ms t) :=
  ⟨wait_quiet ms h.quiet, h.setting⟩

theorem QuietHolding.probe (h : QuietHolding v w t) : (probe t).Ends (QuietHolding v w) := by
  refine probe_ends (fun e => h.of_settingKept ?_) fun _ h1 => ⟨h1.quiet, h1.setting⟩
  constructor <;> simp [arrive_setting h.quiet.1, arrive_settling h.quiet.1]

theorem QuietHolding.conclude {x : Tx Response} (h : x.Ends (QuietHolding v w)) :
    QuietHolding v w (conclude x) :=
  h.final.of_settingKept (by constructor <;> simp)

end

/-- The write leaves the old word or the new one, whether or not it goes through (R147). -/
theorem afterWrite_quietHolding {v : Word} (hq : Quiet s) (hv : sdBit v = true → sdBit s.setting = true) :
    QuietHolding s.setting v (afterWrite v s) := by
  have ha : s.arrive = s.useAnswer := arrive_single hq.1
  unfold afterWrite
  rw [ha]
  split
  · exact ⟨storeSetting_quiet (s := s.useAnswer) hq hv, .inr rfl⟩
  · exact ⟨hq, .inl rfl⟩

/-- The read-modify-write by `f` leaves SETTING as it was or holding `f` of what it was (R18). -/
theorem updateSetting_quietHolding {f : Word → Word} (hq : Quiet s)
    (hf : sdBit (f s.setting) = true → sdBit s.setting = true) :
    (updateSetting f s).Ends (QuietHolding s.setting (f s.setting)) := by
  have hread := afterRead_settingKept hq.1 .setting
  refine updateSetting_ends (fun d => (afterReadLost_settingKept hq.1 _ d).quietHolding hq) ?_
    fun _ h => ⟨h.quiet, h.setting⟩
  rw [settingReply_of_quiet hq]
  have hwrite := afterWrite_quietHolding (v := f s.setting) (hread.quiet hq) (by rwa [hread.setting])
  rwa [hread.setting] at hwrite

theorem powerOnSequence_quietHolding (hq : Quiet s) :
    (powerOnSequence s).Ends (QuietHolding s.setting (powerOnWord s.setting)) :=
  powerOnSequence_ends (updateSetting_quietHolding hq (by simp [sdBit_powerOnWord])) fun _ h => h.wait 4

theorem Sequence.quietHolding (hseq : Sequence i run) (hq : Quiet s) :
    (run s).Ends (QuietHolding s.setting (settingUpdate i s.setting)) := by
  have hsd := sdBit_of_settingUpdate (i := i) (r := s.setting)
  have h := hseq
  cases h with
  | setGain hx =>
    rw [settingUpdate_setGain hx] at hsd ⊢
    exact writeField_ends (updateSetting_quietHolding hq hsd)
  | setIntegrationTime hx =>
    rw [settingUpdate_setIntegrationTime hx] at hsd ⊢
    exact writeField_ends (updateSetting_quietHolding hq hsd)
  | powerOn => exact (powerOnSequence_quietHolding hq).bind fun _ _ h1 => h1
  | begin => exact beginSequence_ends (powerOnSequence_quietHolding hq) fun _ h1 => h1.probe
  | getGain | getIntegrationTime | readLight =>
    exact (hseq.settingKept hq.1 nofun nofun nofun nofun).imp fun _ h1 => h1.quietHolding hq

/-- What an operation does to SETTING while nothing else disturbs it. -/
theorem exec_quietHolding (hq : Quiet s) (h : exec i s = .next t) :
    QuietHolding s.setting (settingUpdate i s.setting) t := by
  obtain ⟨r, rfl⟩ | ⟨run, hrun, rfl⟩ := exec_next_cases h
  · exact ⟨hq, .inl rfl⟩
  · exact .conclude (hrun.quietHolding (s := s.accept i) hq)

/-- What a step does to SETTING while nothing else disturbs it. -/
theorem step_quiet (hq : Quiet s) (h : step s = .next t) :
    Quiet t ∧ (t.setting = s.setting ∨
      ∃ w rest i, s.commands = w :: rest ∧ decode w = .ok i ∧ t.setting = settingUpdate i s.setting) := by
  obtain rfl | ⟨w, rest, hc, ⟨r, rfl⟩ | ⟨i, hd, he⟩⟩ := step_next_cases h
  · exact ⟨hq, .inl rfl⟩
  · exact ⟨hq, .inl rfl⟩
  · obtain ⟨hq', hset⟩ := exec_quietHolding (s := { s with commands := rest }) hq he
    exact ⟨hq', hset.imp_right fun hset => ⟨w, rest, i, hc, hd, hset⟩⟩

/-! ## The obligations -/

/-- Settles O43: a step leaves SETTING as it was or as its operation's `settingUpdate` of it, whose field alone it
changes. -/
theorem stepsKeepSettingFieldsApart : Obligations.StepsKeepSettingFieldsApart := by
  unfold Obligations.StepsKeepSettingFieldsApart
  intro s t hq h
  obtain ⟨hq', hset | ⟨w, rest, i, hc, hd, hset⟩⟩ := step_quiet hq h
  · simp [hq', hset]
  · rw [hset]
    refine ⟨hq', settingUpdate_and _ (fun _ _ => by decide) (fun _ _ => by decide) fun _ => by decide,
      sdBit_of_settingUpdate, fun w' rest' i' hc' hd' => ?_⟩
    obtain ⟨rfl, rfl⟩ := List.cons.inj (hc.symm.trans hc')
    obtain rfl := Except.ok.inj (hd.symm.trans hd')
    exact ⟨
      fun hg => settingUpdate_and _ (fun g hi => (hg g hi).elim) (fun _ _ => by decide) fun _ => by decide,
      fun ht => settingUpdate_and _ (fun _ _ => by decide) (fun m hi => (ht m hi).elim) fun _ => by decide,
      fun hp hb => sdBit_settingUpdate _ hp hb⟩

/-- Settles O42: an idle core answers a next state, either with a response alone or at the end of a sequence that keeps
what `Untouched`, `Sequence.ambientLight` and `Sequence.settingKept` say. -/
theorem operationFrame : Obligations.OperationFrame := by
  unfold Obligations.OperationFrame
  intro i s hs
  obtain ⟨t, ht⟩ := exec_idle_exists hs i
  refine ⟨t, ht, ?_⟩
  obtain ⟨r, rfl⟩ | ⟨run, hrun, rfl⟩ := exec_next_cases ht
  · exact ⟨rfl, rfl, rfl, fun _ _ _ => rfl, fun _ _ _ _ => ⟨rfl, rfl⟩⟩
  · have hu := (hrun.untouched (s := s.accept i)).final
    simp only [conclude_commands, conclude_settleReads, conclude_session, conclude_register, conclude_settling]
    refine ⟨hu.commands, hu.settleReads, hu.session, fun addr h0 h4 => ?_, fun hsingle hi hg hm => ?_⟩
    · exact hu.register h0 fun ha => (hrun.ambientLight (h4 ha)).final
    · simp only [List.mem_cons, List.not_mem_nil, or_false, not_or] at hi
      have hk := (hrun.settingKept (s := s.accept i) hsingle hi.1 hi.2 hg hm).final
      exact ⟨congrArg some hk.setting, hk.settling⟩

end Sys2Proof.Machine
end

section
/-! PROOFS of the memory family: how the two bytes of a register make its word, on the wire and in `RegRead16` (O38). -/

namespace Sys2Proof.Machine

variable {r : ReadReg} {s t : State} {b0 b1 : Byte}

/-- R34: the byte that arrives second weighs 256. -/
theorem wordOfBytes_toNat (b0 b1 : Byte) : (wordOfBytes b0 b1).toNat = b1.toNat * 256 + b0.toNat := by
  have hor : b1.toNat <<< 8 + b0.toNat = b1.toNat <<< 8 ||| b0.toNat := Nat.shiftLeft_add_eq_or_of_lt b0.isLt _
  rw [wordOfBytes, BitVec.toNat_append, ← hor, Nat.shiftLeft_eq]

theorem toNat_eq_msByte_lsByte (v : Word) : v.toNat = (msByte v).toNat * 256 + (lsByte v).toNat := by
  rw [← wordOfBytes_toNat, wordOfBytes_bytes]

theorem regRead16_of_memRead_ok (h : memRead r s = .ok (b0, b1) t) :
    regRead16 r s = .ok (wordOfBytes b0 b1) (t.advance [wordOfBytes b0 b1]) := by
  rw [regRead16, h, Tx.bind]

theorem regRead16_of_memRead_failed (h : memRead r s = .failed t) : regRead16 r s = .failed t := by
  rw [regRead16, h, Tx.bind]

/-- Settles O38: `RegRead16` composes the bytes of `MemRead` by `wordOfBytes`, whose value `wordOfBytes_toNat` gives. -/
theorem registerBytesOnTheWire : Obligations.RegisterBytesOnTheWire := by
  unfold Obligations.RegisterBytesOnTheWire
  refine ⟨fun _ _ b0 b1 _ h => ?_, fun _ _ _ => regRead16_of_memRead_failed, toNat_eq_msByte_lsByte, by decide⟩
  exact ⟨wordOfBytes b0 b1, regRead16_of_memRead_ok h, wordOfBytes_toNat b0 b1⟩

end Sys2Proof.Machine
end

section
/-! PROOFS of the encoding family: the code map and its reserved codes (O2, O3), the field table (O14), the statuses
(O50), the recognised times (O44) and the machine's invariant (O48). The invariant rests on what holds while an operation
is in flight (`InFlight`), which each transaction carries one element further. -/

open Sys2Proof.Claims

namespace Sys2Proof.Machine

variable {s t : State} {i : Instr} {w : Command} {rest : List Command}

/-! ## Codes -/

/-- A command selects only the operation whose code it carries (R63). -/
theorem op_of_decode (h : decode w = .ok i) : w.op = (encode i).op := by
  unfold decode at h
  split at h
  case h_18 => cases h
  all_goals
    cases h
    exact BitVec.eq_of_toNat_eq ‹_›

/-- The reserved codes (R64). -/
def reservedCodes : List (BitVec 5) :=
  [0x06, 0x07, 0x0C, 0x0D, 0x0E, 0x0F, 0x17, 0x18, 0x19, 0x1A, 0x1B, 0x1C, 0x1D, 0x1E, 0x1F]

/-- The assigned codes (R63). -/
def assignedCodes : List (BitVec 5) :=
  [0x00, 0x01, 0x02, 0x03, 0x04, 0x05, 0x08, 0x09, 0x0A, 0x0B, 0x10, 0x11, 0x12, 0x13, 0x14, 0x15, 0x16]

theorem mem_assignedCodes_iff : ∀ op : BitVec 5, op ∈ assignedCodes ↔ op ∉ reservedCodes := by
  decide

theorem encode_op_mem_assignedCodes (i : Instr) : (encode i).op ∈ assignedCodes := by
  cases i <;> simp [encode, Command.bare, assignedCodes]

theorem exists_decode_of_mem_assignedCodes (h : w.op ∈ assignedCodes) : ∃ i, decode w = .ok i := by
  obtain ⟨op, a, b, c, sh⟩ := w
  simp only [assignedCodes, List.mem_cons, List.not_mem_nil, or_false] at h
  obtain rfl | rfl | rfl | rfl | rfl | rfl | rfl | rfl | rfl | rfl | rfl | rfl | rfl | rfl | rfl | rfl | rfl := h <;>
    exact ⟨_, rfl⟩

theorem exists_decode_iff : (∃ i, decode w = .ok i) ↔ w.op ∉ reservedCodes := by
  rw [← mem_assignedCodes_iff]
  refine ⟨?_, exists_decode_of_mem_assignedCodes⟩
  rintro ⟨i, h⟩
  rw [op_of_decode h]
  exact encode_op_mem_assignedCodes i

/-- Bits 4:3 of a code of the group (R63). -/
def groupBits : Group → BitVec 2
  | .codec => 0b00
  | .luxEngine => 0b01
  | .bus => 0b10

theorem groupBits_inj {g g' : Group} : groupBits g = groupBits g' ↔ g = g' := by
  cases g <;> cases g' <;> decide

theorem encode_op_groupBits (i : Instr) : (encode i).op.extractLsb' 3 2 = groupBits i.group := by
  cases i <;> simp [encode, Command.bare, groupBits, Instr.group]

theorem groupBits_of_decode (h : decode w = .ok i) : w.op.extractLsb' 3 2 = groupBits i.group := by
  rw [op_of_decode h, encode_op_groupBits]

/-! ## One step, by what is presented -/

theorem step_of_nil (h : s.commands = []) : step s = .next s := by
  rw [step, fetch_nil h]

theorem step_of_decode_ok (hc : s.commands = w :: rest) (hd : decode w = .ok i) :
    step s = exec i { s with commands := rest } := by
  simp only [step, fetch_cons hc, hd]

theorem step_of_decode_error {e : DecodeError} (hc : s.commands = w :: rest) (hd : decode w = .error e) :
    step s = illegalOp { s with commands := rest } := by
  simp only [step, fetch_cons hc, hd]

/-! ## Fields -/

/-- Extraction is a bit slice where the keep-mask leaves out exactly `n` bits above the shift (R54). -/
theorem extractField_eq_extractLsb' {keep : Word} {sh : BitVec 4} {n : Nat} (r : Word)
    (h : ∀ k : Fin 16, (~~~keep).getLsbD (sh.toNat + k) = decide (k.val < n)) :
    extractField r keep sh = (r.extractLsb' sh.toNat n).setWidth 16 := by
  apply BitVec.eq_of_getLsbD_eq
  intro k hk
  have hm : (~~~keep).getLsbD (sh.toNat + k) = decide (k < n) := h ⟨k, hk⟩
  rw [extractField, BitVec.getLsbD_ushiftRight, BitVec.getLsbD_and, hm]
  simp [hk, Bool.and_comm]

/-- Bits 9:6 are the bits outside the keep-mask of the IT field. -/
theorem extractLsb'_time_of_and {r r' : Word} (h : r' &&& 0x03C0 = r &&& 0x03C0) :
    r'.extractLsb' 6 4 = r.extractLsb' 6 4 := by
  have hones : (0x03C0 : Word).extractLsb' 6 4 = BitVec.allOnes 4 := by decide
  have hmask (v : Word) : (v &&& 0x03C0).extractLsb' 6 4 = v.extractLsb' 6 4 := by
    rw [BitVec.extractLsb'_and, hones, BitVec.and_allOnes]
  rw [← hmask r', h, hmask]

/-- Bits 9:6 hold one of the six recognised values (R53). -/
def RecognisedTime (r : Word) : Prop := r.extractLsb' 6 4 ∈ ([0, 1, 2, 3, 8, 12] : List (BitVec 4))

theorem recognisedTime_setField (r : Word) (x : ITime) : RecognisedTime (setField r itKeep x.bits itShift) := by
  have hkeep : itKeep.extractLsb' 6 4 = 0 := by decide
  rw [RecognisedTime, setField, insertField, BitVec.extractLsb'_or, BitVec.extractLsb'_and, hkeep]
  cases x <;> simp [ITime.bits, itShift]

theorem recognisedTime_integrationTimeWord {r : Word} (h : RecognisedTime r) (c : Millis) :
    RecognisedTime (integrationTimeWord r c).2 := by
  unfold integrationTimeWord
  split
  · exact recognisedTime_setField r _
  · exact h

/-- The only operation that writes the IT field writes the bits of a supported time (R53, R65). -/
theorem recognisedTime_settingUpdate {r : Word} (h : RecognisedTime r) : RecognisedTime (settingUpdate i r) := by
  by_cases hi : ∃ c, i = .setIntegrationTime c
  · obtain ⟨c, rfl⟩ := hi
    exact recognisedTime_integrationTimeWord h c
  · have hkept : settingUpdate i r &&& 0x03C0 = r &&& 0x03C0 :=
      settingUpdate_and r (fun _ _ => by decide) (fun c hc => (hi ⟨c, hc⟩).elim) fun _ => by decide
    rwa [RecognisedTime, extractLsb'_time_of_and hkept]

/-! ## Every response is legal -/

theorem respOk_legal (q : Lux) : (respOk q).legal := trivial
theorem respWord_legal (q : Word) : (respWord q).legal := trivial
theorem respSuccess_legal (present : Bool) : (respSuccess present).legal := trivial
theorem respRejected_legal : respRejected.legal := rfl
theorem respUnknown_legal : respUnknown.legal := .inl rfl
theorem respUnknownGain_legal : respUnknownGain.legal := .inr rfl
theorem respBusError_legal : respBusError.legal := rfl
theorem respIllegalOp_legal : respIllegalOp.legal := rfl

theorem decodeGain_legal (fb : Word) : (decodeGain fb).legal := by
  unfold decodeGain
  split
  · exact respWord_legal _
  · exact respUnknownGain_legal

theorem decodeIntegrationTime_legal (fb : Word) : (decodeIntegrationTime fb).legal := by
  unfold decodeIntegrationTime
  split
  · exact respWord_legal _
  · exact respUnknown_legal

theorem encodeGain_legal (g : GainQ) : (encodeGain g).legal := by
  unfold encodeGain
  split
  · exact respWord_legal _
  · exact respRejected_legal

theorem encodeIntegrationTime_legal (c : Millis) : (encodeIntegrationTime c).legal := by
  unfold encodeIntegrationTime
  split
  · exact respWord_legal _
  · exact respRejected_legal

theorem measureResponse_legal (table : Fin 6 → Fin 4 → Word) (raw : Word) (g : GainQ) (c : Millis) :
    (measureResponse table raw g c).legal := by
  unfold measureResponse
  split
  · exact respOk_legal _
  · exact respUnknown_legal

/-- The value of a sequence that went through satisfies `Q`. -/
def Tx.Yields {α : Type} (Q : α → Prop) : Tx α → Prop
  | .ok v _ => Q v
  | .failed _ | .never _ => True

theorem Tx.Yields.bind {α β : Type} {Q : β → Prop} {x : Tx α} {f : α → State → Tx β}
    (hf : ∀ v t, (f v t).Yields Q) : (x.bind f).Yields Q := by
  cases x with
  | ok v t => exact hf v t
  | failed t => trivial
  | never t => trivial

theorem beginSequence_yields_legal : (beginSequence s).Yields Response.legal := by
  unfold beginSequence
  split
  · exact .bind fun present _ => respSuccess_legal present
  · exact respSuccess_legal false
  · trivial

theorem Sequence.yields_legal {run : State → Tx Response} (h : Sequence i run) :
    (run s).Yields Response.legal := by
  cases h with
  | setGain | setIntegrationTime | powerOn => exact .bind fun _ _ => respOk_legal 0
  | getGain => exact .bind fun _ _ => decodeGain_legal _
  | getIntegrationTime => exact .bind fun _ _ => decodeIntegrationTime_legal _
  | readLight => exact .bind fun _ _ => .bind fun _ _ => .bind fun _ _ => measureResponse_legal ..
  | begin => exact beginSequence_yields_legal

/-! ## While an operation is in flight -/

/-- Operation `i` is in flight, at most `n` elements of its sequence have completed, and the core shows no response. -/
structure InFlight (i : Instr) (n : Nat) (s : State) : Prop where
  seq : ∃ q, s.seq = some q ∧ q.op = i ∧ q.position ≤ n ∧ q.values.length ≤ q.position
  response : s.response = none
  bus : ∀ e ∈ s.bus, e.permitted

section
variable {n : Nat}

theorem InFlight.mono {m : Nat} (h : InFlight i m s) (hmn : m ≤ n) : InFlight i n s := by
  obtain ⟨q, hq, hop, hpos, hval⟩ := h.seq
  exact ⟨⟨q, hq, hop, hpos.trans hmn, hval⟩, h.response, h.bus⟩

/-- A transaction puts one permitted event into the bus history and completes nothing by that. -/
theorem InFlight.event {e : BusEvent} (h : InFlight i n s) (he : e.permitted) (hseq : t.seq = s.seq)
    (hr : t.response = s.response) (hb : t.bus = s.bus ++ [e]) : InFlight i n t := by
  refine ⟨hseq ▸ h.seq, hr ▸ h.response, ?_⟩
  simpa [hb, or_imp, forall_and, he] using h.bus

theorem InFlight.advance {vs : List Word} (h : InFlight i n s) (hvs : vs.length ≤ 1) :
    InFlight i (n + 1) (s.advance vs) := by
  obtain ⟨q, hq, hop, hpos, hval⟩ := h.seq
  refine ⟨⟨{ q with position := q.position + 1, values := q.values ++ vs }, by simp [hq], hop, ?_, ?_⟩,
    h.response, h.bus⟩
  · exact Nat.add_le_add_right hpos 1
  · simpa using Nat.add_le_add hval hvs

theorem ReadReg.addr_cases (r : ReadReg) : r.addr = 0x00 ∨ r.addr = 0x04 := by
  cases r <;> decide

theorem InFlight.afterRead (h : InFlight i n s) (r : ReadReg) : InFlight i (n + 1) (afterRead r s) := by
  refine InFlight.advance (h.event (e := readOk r s) ⟨rfl, r.addr_cases, rfl⟩ ?_ ?_ ?_) (by simp) <;>
    cases r <;> simp [deviceAfterRead, readOk]

theorem InFlight.afterReadLost (h : InFlight i n s) (r : ReadReg) {d : Completion} (hd : d ≠ .ok) :
    InFlight i n (afterReadLost r d s) :=
  h.event (e := .read Config.busAddr r.addr [] d) ⟨rfl, r.addr_cases, by simp [hd]⟩ (by simp) (by simp) (by simp)

theorem InFlight.afterWrite (h : InFlight i n s) (v : Word) : InFlight i n (afterWrite v s) :=
  h.event (e := .write Config.busAddr settingAddr [lsByte v, msByte v] (s.answer 0).completion) ⟨rfl, rfl, rfl⟩
    (by simp) (by simp) (by simp)

theorem InFlight.wait (h : InFlight i n s) : InFlight i (n + 1) (wait 4 s) :=
  InFlight.advance (h.event (e := .wait 4) rfl rfl rfl rfl) (by simp)

theorem InFlight.probed (h : InFlight i n s) (d : Completion) :
    InFlight i n (s.arrive.record (.probe Config.busAddr d)) :=
  h.event (e := .probe Config.busAddr d) rfl (by simp) (by simp) (by simp)

/-- A sequence in which at most `n` elements complete if it is cut short, and one more if it goes through. -/
def Tx.Within {α : Type} (i : Instr) (n : Nat) : Tx α → Prop
  | .ok _ t => InFlight i (n + 1) t
  | .failed t | .never t => InFlight i n t

theorem Tx.Within.mono {α : Type} {m : Nat} {x : Tx α} (h : x.Within i m) (hmn : m ≤ n) : x.Within i n := by
  cases x with
  | ok v t => exact InFlight.mono h (Nat.succ_le_succ hmn)
  | failed t => exact InFlight.mono h hmn
  | never t => exact InFlight.mono h hmn

theorem Tx.Within.bind {α β : Type} {m : Nat} {x : Tx α} {f : α → State → Tx β} (hx : x.Within i m) (hmn : m ≤ n)
    (hf : ∀ v t, InFlight i (m + 1) t → (f v t).Within i n) : (x.bind f).Within i n := by
  cases x with
  | ok v t => exact hf v t hx
  | failed t => exact hx.mono hmn
  | never t => exact hx.mono hmn

theorem InFlight.regRead16 (h : InFlight i n s) (r : ReadReg) : (regRead16 r s).Within i n := by
  rw [regRead16_eq]
  split
  · exact h.afterRead r
  · exact h.afterReadLost r nofun
  · exact h.afterReadLost r nofun

theorem InFlight.regWrite16 (h : InFlight i n s) (v : Word) : (regWrite16 v s).Within i n := by
  rw [regWrite16_eq]
  split
  · exact (h.afterWrite v).advance (by simp)
  · exact h.afterWrite v
  · exact h.afterWrite v

theorem InFlight.probe (h : InFlight i n s) : (probe s).Within i n := by
  rw [probe_eq]
  split
  · exact (h.probed _).advance (by simp)
  · exact (h.probed _).advance (by simp)
  · exact h.probed _

theorem InFlight.updateSetting (h : InFlight i n s) (f : Word → Word) : (updateSetting f s).Within i (n + 1) :=
  (h.regRead16 .setting).bind n.le_succ fun _ _ h1 => h1.regWrite16 _

theorem InFlight.writeField (h : InFlight i n s) (keep fb : Word) (sh : BitVec 4) :
    (writeField keep fb sh s).Within i (n + 1) :=
  (h.updateSetting _).bind le_rfl fun _ _ h1 => h1

theorem InFlight.powerOnSequence (h : InFlight i n s) : (powerOnSequence s).Within i (n + 2) :=
  (h.updateSetting _).bind (n + 1).le_succ fun _ _ h1 => h1.wait

theorem InFlight.readLightSequence (h : InFlight i n s) : (readLightSequence s).Within i (n + 2) :=
  (h.regRead16 _).bind (by omega) fun _ _ h1 =>
    (h1.regRead16 _).bind (by omega) fun _ _ h2 => (h2.regRead16 _).bind le_rfl fun _ _ h3 => h3

/-- `begin` has the longest sequence; a failure ends it early with an answer of its own (R126). -/
theorem InFlight.beginSequence (h : InFlight i n s) : (beginSequence s).Within i (n + 3) := by
  have hp := h.powerOnSequence
  rw [Machine.beginSequence]
  cases hx : Machine.powerOnSequence s with
  | ok v t =>
    rw [hx] at hp
    exact (InFlight.probe hp).bind le_rfl fun _ _ h1 => h1
  | failed t =>
    rw [hx] at hp
    exact InFlight.mono hp (by omega)
  | never t =>
    rw [hx] at hp
    exact InFlight.mono hp (by omega)

/-- No operation completes more than three elements before its last (R127). -/
theorem Sequence.within {run : State → Tx Response} (hrun : Sequence i run) (h : InFlight i 0 s) :
    (run s).Within i 3 := by
  cases hrun with
  | setGain | setIntegrationTime => exact (h.writeField ..).mono (by omega)
  | getGain | getIntegrationTime => exact (h.regRead16 _).bind (by omega) fun _ _ h1 => h1.mono (by omega)
  | powerOn => exact h.powerOnSequence.bind (by omega) fun _ _ h1 => h1.mono (by omega)
  | readLight => exact h.readLightSequence.mono (by omega)
  | begin => exact h.beginSequence

end

theorem Sequence.group_eq_bus {run : State → Tx Response} (h : Sequence i run) : i.group = .bus := by
  cases h <;> rfl

/-! ## The invariant -/

theorem inv_respond {r : Response} (hr : r.legal) (hb : ∀ e ∈ s.bus, e.permitted) : (s.respond r).Inv where
  busySilent := nofun
  busyOnBus := nofun
  legalResponse := by
    rintro _ ⟨⟩
    exact hr
  busPermitted := hb

theorem InFlight.inv (h : InFlight i 3 s) (hi : i.group = .bus) : s.Inv := by
  obtain ⟨q, hq, rfl, hpos, hval⟩ := h.seq
  refine ⟨fun _ _ => h.response, fun q' hq' => ?_, fun r hr => ?_, h.bus⟩
  · obtain rfl := Option.some.inj (hq.symm.trans hq')
    exact ⟨hi, hpos, hval⟩
  · cases h.response.symm.trans hr

theorem inv_conclude {x : Tx Response} (hx : x.Within i 3) (hlegal : x.Yields Response.legal)
    (hi : i.group = .bus) : (conclude x).Inv := by
  cases x with
  | ok r t => exact inv_respond hlegal (InFlight.bus hx)
  | failed t => exact inv_respond respBusError_legal (InFlight.bus hx)
  | never t => exact InFlight.inv hx hi

theorem pureOp_inv {r : Response} (h : s.Inv) (hr : r.legal) (he : pureOp r s = .next t) : t.Inv := by
  obtain ⟨-, rfl⟩ := whenIdle_eq_next.mp he
  exact inv_respond hr h.busPermitted

theorem busOp_inv {run : State → Tx Response} (h : s.Inv) (hrun : Sequence i run) (he : busOp i run s = .next t) :
    t.Inv := by
  obtain ⟨-, rfl⟩ := whenIdle_eq_next.mp he
  have hacc : InFlight i 0 (s.accept i) := ⟨⟨_, rfl, rfl, le_rfl, le_rfl⟩, rfl, h.busPermitted⟩
  exact inv_conclude (hrun.within hacc) hrun.yields_legal hrun.group_eq_bus

/-- Every operation keeps the invariant: a pure one responds legally, another runs its sequence. -/
theorem exec_inv (h : s.Inv) (he : exec i s = .next t) : t.Inv := by
  cases i with
  | encodeGain b => exact pureOp_inv h (encodeGain_legal b) he
  | decodeGain a => exact pureOp_inv h (decodeGain_legal a) he
  | encodeIntegrationTime c => exact pureOp_inv h (encodeIntegrationTime_legal c) he
  | decodeIntegrationTime a => exact pureOp_inv h (decodeIntegrationTime_legal a) he
  | setField | powerOnWord => exact pureOp_inv h (respWord_legal _) he
  | compensate a => exact pureOp_inv h (respOk_legal _) he
  | selectConversionConstant | rawToLux =>
    refine pureOp_inv h ?_ he
    split
    · exact respOk_legal _
    · exact respUnknown_legal
  | measure a b c => exact pureOp_inv h (measureResponse_legal ..) he
  | getGain => exact busOp_inv h .getGain he
  | getIntegrationTime => exact busOp_inv h .getIntegrationTime he
  | powerOn => exact busOp_inv h .powerOn he
  | readLight => exact busOp_inv h .readLight he
  | begin => exact busOp_inv h .begin he
  | setGain b =>
    change execSetGain b s = _ at he
    unfold execSetGain at he
    split at he
    · next hx => exact busOp_inv h (.setGain hx) he
    · exact pureOp_inv h respRejected_legal he
  | setIntegrationTime c =>
    change execSetIntegrationTime c s = _ at he
    unfold execSetIntegrationTime at he
    split at he
    · next hx => exact busOp_inv h (.setIntegrationTime hx) he
    · exact pureOp_inv h respRejected_legal he

/-- The invariant says nothing of the commands still to come. -/
theorem inv_commands (h : s.Inv) (l : List Command) : State.Inv { s with commands := l } :=
  ⟨h.busySilent, h.busyOnBus, h.legalResponse, h.busPermitted⟩

/-! ## The obligations -/

/-- Settles O48: the core stays as it is, answers a reserved code, or runs an operation, and each keeps the invariant. -/
theorem stepKeepsTheInvariant : Obligations.StepKeepsTheInvariant := by
  unfold Obligations.StepKeepsTheInvariant
  intro s t h hst
  cases hc : s.commands with
  | nil =>
    rw [step_of_nil hc] at hst
    cases hst
    exact h
  | cons w rest =>
    have hrest := inv_commands h rest
    cases hd : decode w with
    | error e =>
      rw [step_of_decode_error hc hd] at hst
      exact pureOp_inv hrest respIllegalOp_legal hst
    | ok i =>
      rw [step_of_decode_ok hc hd] at hst
      exact exec_inv hrest hst

/-- Settles O3: `exists_decode_iff` names the codes, and the answer to one of them is a pure operation's. -/
theorem reservedCodesAnswerIllegalOp : Obligations.ReservedCodesAnswerIllegalOp := by
  unfold Obligations.ReservedCodesAnswerIllegalOp
  refine fun w => ⟨exists_decode_iff, fun s rest hs hc hnone => ?_⟩
  cases hd : decode w with
  | error e =>
    rw [step_of_decode_error hc hd]
    exact pureOp_idle hs
  | ok i => exact absurd hd (hnone i)

/-- Settles O44: a step leaves SETTING as it was or as its operation's `settingUpdate` of it. -/
theorem recognisedTimeStaysRecognised : Obligations.RecognisedTimeStaysRecognised := by
  unfold Obligations.RecognisedTimeStaysRecognised
  intro s t hq hst hrec
  obtain ⟨hq', hset | ⟨_, _, i, -, -, hset⟩⟩ := step_quiet hq hst <;> rw [hset]
  · exact ⟨hq', hrec⟩
  · exact ⟨hq', recognisedTime_settingUpdate hrec⟩

/-- Settles O2: the seventeen rows of the map by evaluation, the group bits by `groupBits_of_decode`. -/
theorem eachCodeSelectsItsOperation : Obligations.EachCodeSelectsItsOperation := by
  unfold Obligations.EachCodeSelectsItsOperation
  intro a b c sh low
  refine ⟨rfl, rfl, rfl, rfl, rfl, rfl, rfl, rfl, rfl, rfl, rfl, rfl, rfl, rfl, rfl, rfl, rfl, fun op i h => ?_⟩
  rw [groupBits_of_decode h]
  exact ⟨groupBits_inj (g' := .codec), groupBits_inj (g' := .luxEngine), groupBits_inj (g' := .bus)⟩

/-- Settles O14: insertion is its definition, extraction a bit slice by `extractField_eq_extractLsb'`. -/
theorem fieldInsertionAndExtraction : Obligations.FieldInsertionAndExtraction := by
  unfold Obligations.FieldInsertionAndExtraction
  intro r fb
  refine ⟨rfl, rfl, ?_, ?_, ?_, ?_, by decide, by decide, by decide⟩
  · simp [insertField, sdKeep, sdShift]
  · exact extractField_eq_extractLsb' r (by decide)
  · exact extractField_eq_extractLsb' r (by decide)
  · exact extractField_eq_extractLsb' r (by decide)

/-- Settles O50. -/
theorem statusCodes : Obligations.StatusCodes := by
  unfold Obligations.StatusCodes
  refine ⟨rfl, rfl, rfl, rfl, rfl, fun st => ?_⟩
  cases st <;> decide

end Sys2Proof.Machine
end

section
/-! PROOFS of the register codec family (O8 to O13, O15 to O17). The gains and the times are each a table of values and
field bits, read one way by an encode and the other way by a decode: `Codec` says so of both pairs of operations, and the
round trips follow from it alone. -/

open Sys2Proof.Claims

namespace Sys2Proof.Machine

variable {s : State} {g : GainQ} {c : Millis} {fb : Word}

/-! ## The tables of the spec, by the supported values -/

theorem mem_gains_iff : (g, fb) ∈ gains ↔ ∃ x : Gain, g = x.toQ ∧ fb = x.bits := by
  constructor
  · simp only [gains, List.mem_cons, List.not_mem_nil, or_false, Prod.mk.injEq]
    rintro (h | h | h | h)
    exacts [⟨.x1, h⟩, ⟨.x2, h⟩, ⟨.x0125, h⟩, ⟨.x025, h⟩]
  · rintro ⟨x, rfl, rfl⟩
    cases x <;> decide

theorem mem_times_iff : (c, fb) ∈ times ↔ ∃ x : ITime, c = x.toMs ∧ fb = x.bits := by
  constructor
  · simp only [times, List.mem_cons, List.not_mem_nil, or_false, Prod.mk.injEq]
    rintro (h | h | h | h | h | h)
    exacts [⟨.ms100, h⟩, ⟨.ms200, h⟩, ⟨.ms400, h⟩, ⟨.ms800, h⟩, ⟨.ms50, h⟩, ⟨.ms25, h⟩]
  · rintro ⟨x, rfl, rfl⟩
    cases x <;> decide

theorem Gain.ofQ_eq_none (h : Unsupported g) : Gain.ofQ g = none :=
  Option.eq_none_iff_forall_ne_some.mpr fun x hx => h x.bits (mem_gains_iff.mpr ⟨x, Gain.ofQ_eq_some.mp hx, rfl⟩)

theorem Gain.ofBits_eq_none (h : ∀ v, (v, fb) ∉ gains) : Gain.ofBits fb = none :=
  Option.eq_none_iff_forall_ne_some.mpr fun x hx => h x.toQ (mem_gains_iff.mpr ⟨x, rfl, Gain.ofBits_eq_some.mp hx⟩)

theorem ITime.ofMs_eq_none (h : UnsupportedTime c) : ITime.ofMs c = none :=
  Option.eq_none_iff_forall_ne_some.mpr fun x hx => h x.bits (mem_times_iff.mpr ⟨x, ITime.ofMs_eq_some.mp hx, rfl⟩)

theorem ITime.ofBits_eq_none (h : ∀ v, (v, fb) ∉ times) : ITime.ofBits fb = none :=
  Option.eq_none_iff_forall_ne_some.mpr fun x hx => h x.toMs (mem_times_iff.mpr ⟨x, rfl, ITime.ofBits_eq_some.mp hx⟩)

/-! ## The operations of the codec on an idle core -/

/-- An operation that is pure answers the machine with its response and nothing else changed (R66). -/
theorem exec_eq_responded {i : Instr} {r : Response} {st : Status} {q : Lux} (hs : s.Idle)
    (hi : exec i s = pureOp r s) (hr : r = ⟨st, q⟩) : exec i s = .next (responded s st q) := by
  rw [hi, hr]
  exact pureOp_idle hs

/-- The operations `enc` and `dec` answer by the rows (value, field bits) of `table`: `enc` rejects a value without a
row, and `dec` answers field bits without one with the UNKNOWN `image`, which is no value of the table (R80 to R83, R88). -/
structure Codec (table : List (Word × Word)) (image : Lux) (enc dec : Word → Instr) : Prop where
  encode_of_mem : ∀ {s : State} {v fb}, s.Idle → (v, fb) ∈ table →
    exec (enc v) s = .next (responded s .ok (fb.setWidth 32))
  encode_of_not_mem : ∀ {s : State} {v}, s.Idle → (∀ fb, (v, fb) ∉ table) →
    exec (enc v) s = .next (responded s .rejected 0)
  decode_of_mem : ∀ {s : State} {v fb}, s.Idle → (v, fb) ∈ table →
    exec (dec fb) s = .next (responded s .ok (v.setWidth 32))
  decode_of_not_mem : ∀ {s : State} {fb}, s.Idle → (∀ v, (v, fb) ∉ table) →
    exec (dec fb) s = .next (responded s .unknown image)
  image_not_mem : ∀ fb, (image.setWidth 16, fb) ∉ table

theorem gainCodec : Codec gains 0x07F8 .encodeGain .decodeGain where
  encode_of_mem hs h := by
    obtain ⟨x, rfl, rfl⟩ := mem_gains_iff.mp h
    exact exec_eq_responded hs rfl (by rw [encodeGain, Gain.ofQ_toQ]; rfl)
  encode_of_not_mem hs h := exec_eq_responded hs rfl (by rw [encodeGain, Gain.ofQ_eq_none h]; rfl)
  decode_of_mem hs h := by
    obtain ⟨x, rfl, rfl⟩ := mem_gains_iff.mp h
    exact exec_eq_responded hs rfl (by rw [decodeGain, Gain.ofBits_bits]; rfl)
  decode_of_not_mem hs h := exec_eq_responded hs rfl (by rw [decodeGain, Gain.ofBits_eq_none h]; rfl)
  image_not_mem fb := by simp [gains]

theorem timeCodec : Codec times 0x00FF .encodeIntegrationTime .decodeIntegrationTime where
  encode_of_mem hs h := by
    obtain ⟨x, rfl, rfl⟩ := mem_times_iff.mp h
    exact exec_eq_responded hs rfl (by rw [encodeIntegrationTime, ITime.ofMs_toMs]; rfl)
  encode_of_not_mem hs h := exec_eq_responded hs rfl (by rw [encodeIntegrationTime, ITime.ofMs_eq_none h]; rfl)
  decode_of_mem hs h := by
    obtain ⟨x, rfl, rfl⟩ := mem_times_iff.mp h
    exact exec_eq_responded hs rfl (by rw [decodeIntegrationTime, ITime.ofBits_bits]; rfl)
  decode_of_not_mem hs h := exec_eq_responded hs rfl (by rw [decodeIntegrationTime, ITime.ofBits_eq_none h]; rfl)
  image_not_mem fb := by simp [times]

section
variable {table : List (Word × Word)} {image : Lux} {enc dec : Word → Instr} {v : Word}

/-- A supported value encodes to field bits that decode to it. -/
theorem Codec.decode_encode (h : Codec table image enc dec) (hs : s.Idle) (hv : (v, fb) ∈ table) :
    ∃ t, exec (enc v) s = .next t ∧ t.response = some ⟨.ok, fb.setWidth 32⟩ ∧
      exec (dec fb) t = .next (responded s .ok (v.setWidth 32)) :=
  ⟨_, h.encode_of_mem hs hv, rfl, h.decode_of_mem (s := responded s .ok _) hs hv⟩

/-- Field bits that decode encode back to themselves; the image of those that do not is rejected. -/
theorem Codec.encode_decode (h : Codec table image enc dec) (hs : s.Idle) {p : Prop} [Decidable p]
    (hp : p ↔ ∃ v, (v, fb) ∈ table) :
    ∃ q, exec (dec fb) s = .next (responded s (if p then .ok else .unknown) q) ∧
      exec (enc (q.setWidth 16)) s =
        .next (if p then responded s .ok (fb.setWidth 32) else responded s .rejected 0) := by
  by_cases hfb : p
  · obtain ⟨v, hv⟩ := hp.mp hfb
    rw [if_pos hfb, if_pos hfb]
    exact ⟨v.setWidth 32, h.decode_of_mem hs hv, h.encode_of_mem hs (by simpa using hv)⟩
  · have hnone : ∀ v, (v, fb) ∉ table := fun v hv => hfb (hp.mpr ⟨v, hv⟩)
    rw [if_neg hfb, if_neg hfb]
    exact ⟨image, h.decode_of_not_mem hs hnone, h.encode_of_not_mem hs h.image_not_mem⟩

end

/-- The four values of the 2-bit GAIN field all decode (R52). -/
theorem toNat_lt_four_iff : fb.toNat < 4 ↔ ∃ v, (v, fb) ∈ gains := by
  simp only [gains, List.mem_cons, List.not_mem_nil, or_false, Prod.mk.injEq, exists_or, exists_eq_left]
  bv_omega

/-- The recognised values of the IT field (R53). -/
theorem mem_recognised_iff : fb ∈ ([0, 1, 2, 3, 8, 12] : List Word) ↔ ∃ v, (v, fb) ∈ times := by
  simp [times, exists_or]

/-! ## The words that the codec makes -/

theorem gainWord_of_mem (r : Word) (h : (g, fb) ∈ gains) :
    gainWord r g = (.ok, setField r gainKeep fb gainShift) := by
  obtain ⟨x, rfl, rfl⟩ := mem_gains_iff.mp h
  rw [gainWord, Gain.ofQ_toQ]

theorem gainWord_of_unsupported (r : Word) (h : Unsupported g) : gainWord r g = (.rejected, r) := by
  rw [gainWord, Gain.ofQ_eq_none h]

theorem integrationTimeWord_of_mem (r : Word) (h : (c, fb) ∈ times) :
    integrationTimeWord r c = (.ok, setField r itKeep fb itShift) := by
  obtain ⟨x, rfl, rfl⟩ := mem_times_iff.mp h
  rw [integrationTimeWord, ITime.ofMs_toMs]

theorem integrationTimeWord_of_unsupported (r : Word) (h : UnsupportedTime c) :
    integrationTimeWord r c = (.rejected, r) := by
  rw [integrationTimeWord, ITime.ofMs_eq_none h]

theorem getLsbD_setField (r keep bits : Word) (sh : BitVec 4) {k : Nat} (hk : k < 16) :
    (setField r keep bits sh).getLsbD k =
      ((r.getLsbD k && keep.getLsbD k) || (decide (sh.toNat ≤ k) && bits.getLsbD (k - sh.toNat))) := by
  simp only [setField, insertField, BitVec.getLsbD_or, BitVec.getLsbD_and, BitVec.getLsbD_shiftLeft, hk, decide_true,
    Bool.true_and, ← Nat.not_lt, decide_not]

theorem powerOnWord_eq (r : Word) : powerOnWord r = r &&& 0xFFFE := by
  simp [powerOnWord, setField, insertField, sdKeep]

/-- The keep-mask of the SD field keeps every bit but bit 0 (R54). -/
theorem getLsbD_powerOnWord (r : Word) {k : Nat} (hk : 1 ≤ k) : (powerOnWord r).getLsbD k = r.getLsbD k := by
  have hmask : (0xFFFE : Word) = ~~~1#16 := by decide
  rw [powerOnWord_eq, hmask, BitVec.getLsbD_and, BitVec.getLsbD_not, BitVec.getLsbD_one]
  by_cases h : k < 16
  · simp [h, Nat.ne_of_gt hk]
  · simp [BitVec.getLsbD_of_ge r k (Nat.le_of_not_lt h)]

/-- A field that the keep-mask clears holds what the inserted bits bring there. -/
theorem extractLsb'_setField {keep : Word} {sh : BitVec 4} {start n : Nat} (r bits : Word)
    (h : keep.extractLsb' start n = 0) :
    (setField r keep bits sh).extractLsb' start n = (bits <<< sh.toNat).extractLsb' start n := by
  simp [setField, insertField, BitVec.extractLsb'_or, BitVec.extractLsb'_and, h]

/-! ## The obligations -/

/-- Settles O16: the two codecs' round trips, each on its table's field values. -/
theorem roundTripLaw : Obligations.RoundTripLaw := by
  unfold Obligations.RoundTripLaw
  exact fun s hs =>
    ⟨fun _ _ h => gainCodec.decode_encode hs h, fun _ _ h => timeCodec.decode_encode hs h,
      fun _ => gainCodec.encode_decode hs toNat_lt_four_iff, fun _ => timeCodec.encode_decode hs mem_recognised_iff⟩

/-- Settles O17: the bits outside a field by `setField_and`, the field itself by `extractLsb'_setField`; the field bits
4 shifted by 11 reach bit 13. -/
theorem fieldIsolationLaw : Obligations.FieldIsolationLaw := by
  unfold Obligations.FieldIsolationLaw
  refine ⟨fun r g fb h => ⟨gainWord_and r g (by decide), ?_⟩,
    fun r c fb h => ⟨integrationTimeWord_and r c (by decide), ?_⟩,
    fun r => ⟨setField_and r (by decide) (by decide), sdBit_powerOnWord r⟩, 0, 4, by decide⟩
  · rw [gainWord_of_mem r h, extractLsb'_setField r fb (by decide)]
    obtain ⟨x, -, rfl⟩ := mem_gains_iff.mp h
    cases x <;> decide
  · rw [integrationTimeWord_of_mem r h, extractLsb'_setField r fb (by decide)]
    obtain ⟨x, -, rfl⟩ := mem_times_iff.mp h
    cases x <;> decide

/-- Settles O8: a value is in one of the four rows of the gain table or in none. -/
theorem encodeGainResult : Obligations.EncodeGainResult := by
  unfold Obligations.EncodeGainResult
  refine ⟨fun _ _ _ _ => rfl, fun s b hs => ?_⟩
  split_ifs with h1 h2 h3 h4
  · exact gainCodec.encode_of_mem hs (fb := 0) (by simp [gains, h1])
  · exact gainCodec.encode_of_mem hs (fb := 1) (by simp [gains, h2])
  · exact gainCodec.encode_of_mem hs (fb := 2) (by simp [gains, h3])
  · exact gainCodec.encode_of_mem hs (fb := 3) (by simp [gains, h4])
  · exact gainCodec.encode_of_not_mem hs (by simp_all [gains])

/-- Settles O9: field bits are in one of the four rows of the gain table or in none. -/
theorem decodeGainResult : Obligations.DecodeGainResult := by
  unfold Obligations.DecodeGainResult
  refine ⟨fun _ _ _ _ => rfl, fun s a hs => ?_⟩
  split_ifs with h1 h2 h3 h4
  · exact gainCodec.decode_of_mem hs (v := 8) (by simp [gains, h1])
  · exact gainCodec.decode_of_mem hs (v := 16) (by simp [gains, h2])
  · exact gainCodec.decode_of_mem hs (v := 1) (by simp [gains, h3])
  · exact gainCodec.decode_of_mem hs (v := 2) (by simp [gains, h4])
  · exact gainCodec.decode_of_not_mem hs (by simp_all [gains])

/-- Settles O10: a count is in one of the six rows of the time table or in none. -/
theorem encodeIntegrationTimeResult : Obligations.EncodeIntegrationTimeResult := by
  unfold Obligations.EncodeIntegrationTimeResult
  refine ⟨fun _ _ _ _ => rfl, fun s c hs => ?_⟩
  split_ifs with h1 h2 h3 h4 h5 h6
  · exact timeCodec.encode_of_mem hs (fb := 0) (by simp [times, h1])
  · exact timeCodec.encode_of_mem hs (fb := 1) (by simp [times, h2])
  · exact timeCodec.encode_of_mem hs (fb := 2) (by simp [times, h3])
  · exact timeCodec.encode_of_mem hs (fb := 3) (by simp [times, h4])
  · exact timeCodec.encode_of_mem hs (fb := 8) (by simp [times, h5])
  · exact timeCodec.encode_of_mem hs (fb := 12) (by simp [times, h6])
  · exact timeCodec.encode_of_not_mem hs (by simp_all [times])

/-- Settles O11: field bits are in one of the six rows of the time table or in none. -/
theorem decodeIntegrationTimeResult : Obligations.DecodeIntegrationTimeResult := by
  unfold Obligations.DecodeIntegrationTimeResult
  refine ⟨fun _ _ _ _ => rfl, fun s a hs => ?_⟩
  split_ifs with h1 h2 h3 h4 h5 h6
  · exact timeCodec.decode_of_mem hs (v := 100) (by simp [times, h1])
  · exact timeCodec.decode_of_mem hs (v := 200) (by simp [times, h2])
  · exact timeCodec.decode_of_mem hs (v := 400) (by simp [times, h3])
  · exact timeCodec.decode_of_mem hs (v := 800) (by simp [times, h4])
  · exact timeCodec.decode_of_mem hs (v := 50) (by simp [times, h5])
  · exact timeCodec.decode_of_mem hs (v := 25) (by simp [times, h6])
  · exact timeCodec.decode_of_not_mem hs (by simp_all [times])

/-- Settles O12: the word is `set_field`'s, its bits by `getLsbD_setField`. -/
theorem setFieldResult : Obligations.SetFieldResult := by
  unfold Obligations.SetFieldResult
  exact ⟨fun _ _ _ _ => rfl, fun s a b c sh hs =>
    ⟨setField a b c sh, exec_eq_responded hs rfl rfl, rfl, fun _ hk => getLsbD_setField a b c sh hk⟩⟩

/-- Settles O13: the word is `power_on_word`'s, its bits by `sdBit_powerOnWord` and `getLsbD_powerOnWord`. -/
theorem powerOnWordResult : Obligations.PowerOnWordResult := by
  unfold Obligations.PowerOnWordResult
  exact ⟨fun _ _ _ _ => rfl, fun s a hs =>
    ⟨powerOnWord a, exec_eq_responded hs rfl rfl, powerOnWord_eq a, sdBit_powerOnWord a,
      fun _ hk => getLsbD_powerOnWord a hk⟩⟩

/-- Settles O15: the helper words on a row of each table and on a value without one. -/
theorem helperWords : Obligations.HelperWords := by
  unfold Obligations.HelperWords
  exact fun r => ⟨fun _ _ h => gainWord_of_mem r h, fun _ h => gainWord_of_unsupported r h,
    fun _ _ h => integrationTimeWord_of_mem r h, fun _ h => integrationTimeWord_of_unsupported r h⟩

end Sys2Proof.Machine
end

section
/-! PROOFS of the lux engine family (O18 to O28). The lookup is a cell or UNKNOWN, and UNKNOWN exactly on an unsupported
operand; R105's numerator is strictly increasing, so that the ends of a range bound its floor over the range. -/

open Sys2Proof.Claims

namespace Sys2Proof.Machine

variable {s : State} {g : GainQ} {c : Millis} {raw m : Word} {lux : Lux} {table : Fin 6 → Fin 4 → Word}

/-! ## The lookup -/

theorem mem_columns_iff {col : Fin 4} : (g, col) ∈ columns ↔ ∃ x : Gain, g = x.toQ ∧ col = x.col := by
  constructor
  · simp only [columns, List.mem_cons, List.not_mem_nil, or_false, Prod.mk.injEq]
    rintro (h | h | h | h)
    exacts [⟨.x2, h⟩, ⟨.x1, h⟩, ⟨.x025, h⟩, ⟨.x0125, h⟩]
  · rintro ⟨x, rfl, rfl⟩
    cases x <;> decide

theorem mem_rows_iff {row : Fin 6} : (c, row) ∈ rows ↔ ∃ x : ITime, c = x.toMs ∧ row = x.row := by
  constructor
  · simp only [rows, List.mem_cons, List.not_mem_nil, or_false, Prod.mk.injEq]
    rintro (h | h | h | h | h | h)
    exacts [⟨.ms800, h⟩, ⟨.ms400, h⟩, ⟨.ms200, h⟩, ⟨.ms100, h⟩, ⟨.ms50, h⟩, ⟨.ms25, h⟩]
  · rintro ⟨x, rfl, rfl⟩
    cases x <;> decide

theorem Gain.ofQ_eq_none_iff : Gain.ofQ g = none ↔ Unsupported g := by
  refine ⟨fun h fb hfb => ?_, Gain.ofQ_eq_none⟩
  obtain ⟨x, rfl, -⟩ := mem_gains_iff.mp hfb
  simp at h

theorem ITime.ofMs_eq_none_iff : ITime.ofMs c = none ↔ UnsupportedTime c := by
  refine ⟨fun h fb hfb => ?_, ITime.ofMs_eq_none⟩
  obtain ⟨x, rfl, -⟩ := mem_times_iff.mp hfb
  simp at h

theorem selectConstant_of_mem {col : Fin 4} {row : Fin 6} (table : Fin 6 → Fin 4 → Word) (hg : (g, col) ∈ columns)
    (hc : (c, row) ∈ rows) : selectConstant table g c = some (table row col) := by
  obtain ⟨x, rfl, rfl⟩ := mem_columns_iff.mp hg
  obtain ⟨y, rfl, rfl⟩ := mem_rows_iff.mp hc
  simp [selectConstant]

/-- The lookup gives a cell of the table or nothing. -/
theorem selectConstant_eq_some (h : selectConstant table g c = some m) : ∃ row col, m = table row col := by
  unfold selectConstant at h
  split at h
  · cases h
    exact ⟨_, _, rfl⟩
  · cases h

/-- The lookup is UNKNOWN exactly on an unsupported operand (R102). -/
theorem selectConstant_eq_none_iff :
    selectConstant table g c = none ↔ Unsupported g ∨ UnsupportedTime c := by
  rw [← Gain.ofQ_eq_none_iff, ← ITime.ofMs_eq_none_iff, selectConstant]
  cases Gain.ofQ g <;> cases ITime.ofMs c <;> simp

theorem convTableGK_toNat : ∀ row col, (convTableGK row col).toNat = 36 * 2 ^ row.val *
    (if col = 0 then 1 else if col = 1 then 2 else if col = 2 then 8 else 16) := by
  decide

theorem convTableGK_le : ∀ row col, (convTableGK row col).toNat ≤ 18432 := by
  decide

theorem convTableRef_le : ∀ row col, (convTableRef row col).toNat ≤ 18432 := by
  decide

/-! ## The lux of a sample -/

/-- The quotient of the whole product fits the result port (R109). -/
theorem luxOf_toNat (raw m : Word) : (luxOf raw m).toNat = raw.toNat * m.toNat / 10000 := by
  have hprod : raw.toNat * m.toNat ≤ 65535 * 65535 :=
    Nat.mul_le_mul (Nat.le_of_lt_succ raw.isLt) (Nat.le_of_lt_succ m.isLt)
  rw [luxOf, BitVec.toNat_ofNat, Nat.mod_eq_of_lt]
  omega

theorem luxOf_le {bound : Nat} (raw : Word) (h : m.toNat ≤ bound) :
    (luxOf raw m).toNat ≤ 65535 * bound / 10000 := by
  rw [luxOf_toNat]
  exact Nat.div_le_div_right (Nat.mul_le_mul (Nat.le_of_lt_succ raw.isLt) h)

theorem luxOf_mono {raw' : Word} (m : Word) (h : raw.toNat ≤ raw'.toNat) :
    (luxOf raw m).toNat ≤ (luxOf raw' m).toNat := by
  rw [luxOf_toNat, luxOf_toNat]
  exact Nat.div_le_div_right (Nat.mul_le_mul_right _ h)

theorem rawToLux_eq_some :
    rawToLux table raw g c = some lux ↔ ∃ m, selectConstant table g c = some m ∧ luxOf raw m = lux :=
  Option.map_eq_some_iff

theorem rawToLux_of_mem {col : Fin 4} {row : Fin 6} (table : Fin 6 → Fin 4 → Word) (raw : Word)
    (hg : (g, col) ∈ columns) (hc : (c, row) ∈ rows) :
    rawToLux table raw g c = some (luxOf raw (table row col)) :=
  rawToLux_eq_some.mpr ⟨_, selectConstant_of_mem table hg hc, rfl⟩

theorem rawToLux_eq_none_iff :
    rawToLux table raw g c = none ↔ Unsupported g ∨ UnsupportedTime c :=
  Option.map_eq_none_iff.trans selectConstant_eq_none_iff

/-- A bound on the table's cells bounds the lux of every sample (R107). -/
theorem rawToLux_le {bound : Nat} (htable : ∀ row col, (table row col).toNat ≤ bound)
    (h : rawToLux table raw g c = some lux) : lux.toNat ≤ 65535 * bound / 10000 := by
  obtain ⟨m, hm, rfl⟩ := rawToLux_eq_some.mp h
  obtain ⟨row, col, rfl⟩ := selectConstant_eq_some hm
  exact luxOf_le raw (htable row col)

/-! ## The correction polynomial -/

theorem polyPos_sub_polyNeg (x : Nat) : (polyPos x : Int) - polyNeg x = numerator x := by
  simp only [polyPos, polyNeg, numerator]
  push_cast
  ring

/-- The derivative of the polynomial less its constant is `x` times a quadratic of negative discriminant (R105); so is
the difference of two neighbouring values, but for a positive constant. -/
theorem numerator_lt_succ (x : Nat) : numerator x < numerator (x + 1) := by
  have hx : (0 : Int) ≤ x := Int.natCast_nonneg x
  have hquadratic : (0 : Int) ≤ 240540 * (x : Int) ^ 2 - 2817359190 * x + 16294782520540 := by
    nlinarith [sq_nonneg (2 * 240540 * (x : Int) - 2817359190)]
  have hdiff : numerator (x + 1) - numerator x =
      x * (240540 * (x : Int) ^ 2 - 2817359190 * x + 16294782520540) + 100238147860820135 := by
    simp only [numerator]
    push_cast
    ring
  linarith [mul_nonneg hx hquadratic]

theorem numerator_strictMono : StrictMono numerator :=
  strictMono_nat_of_lt_succ numerator_lt_succ

theorem numerator_nonneg (x : Nat) : 0 ≤ numerator x :=
  numerator_strictMono.monotone x.zero_le

theorem compensated_cast (x : Nat) : (compensated x : Int) = numerator x / 10 ^ 17 := by
  rw [compensated, polyPos_sub_polyNeg, Int.toNat_of_nonneg (Int.ediv_nonneg (numerator_nonneg x) (by decide))]

theorem compensated_mono {x y : Nat} (h : x ≤ y) : compensated x ≤ compensated y := by
  have hfloor := Int.ediv_le_ediv (c := 10 ^ 17) (by decide) (numerator_strictMono.monotone h)
  rwa [← compensated_cast, ← compensated_cast, Int.ofNat_le] at hfloor

theorem compensated_mul_le (x : Nat) : (compensated x : Int) * 10 ^ 17 ≤ numerator x := by
  rw [compensated_cast]
  exact Int.ediv_mul_le _ (by decide)

theorem lt_compensated_succ_mul (x : Nat) : numerator x < ((compensated x : Int) + 1) * 10 ^ 17 := by
  rw [compensated_cast]
  exact Int.lt_ediv_add_one_mul_self _ (by decide)

theorem compensated_294568 : compensated 294568 = 4294914468 := by decide

theorem two_pow_le_compensated_294569 : 2 ^ 32 ≤ compensated 294569 := by decide

theorem compensated_120794 : compensated 120794 = 112784830 := by decide

theorem compensated_1001 : compensated 1001 = 1076 := by decide

/-! ## The compensated lux -/

theorem compensate_toNat (h : lux.toNat ≤ 294568) : (compensate lux).toNat = compensated lux.toNat := by
  have hfits : compensated lux.toNat < 2 ^ 32 :=
    calc compensated lux.toNat ≤ compensated 294568 := compensated_mono h
      _ < 2 ^ 32 := by rw [compensated_294568]; decide
  rw [compensate, if_pos hfits, BitVec.toNat_ofNat, Nat.mod_eq_of_lt hfits]

theorem two_pow_le_compensated {x : Nat} (h : 294568 < x) : 2 ^ 32 ≤ compensated x :=
  two_pow_le_compensated_294569.trans (compensated_mono h)

theorem compensate_beyond (h : 294568 < lux.toNat) : compensate lux = Config.compensateBeyondPort lux :=
  if_neg (Nat.not_lt.mpr (two_pow_le_compensated h))

theorem measureLux_of_le (h : lux.toNat ≤ 1000) : measureLux lux = lux :=
  if_neg (Nat.not_lt.mpr h)

theorem measureLux_of_gt (h : 1000 < lux.toNat) : measureLux lux = compensate lux :=
  if_pos h

theorem measureResponse_of_some (h : rawToLux table raw g c = some lux) :
    measureResponse table raw g c = respOk (measureLux lux) := by
  rw [measureResponse, h]

theorem measureResponse_of_unsupported (table : Fin 6 → Fin 4 → Word) (raw : Word)
    (h : Unsupported g ∨ UnsupportedTime c) : measureResponse table raw g c = respUnknown := by
  rw [measureResponse, rawToLux_eq_none_iff.mpr h]

/-- The value of every response of `measure` is the UNKNOWN image or comes from a lux that the table's cells bound. -/
theorem measureResponse_q_cases {bound : Nat} (htable : ∀ row col, (table row col).toNat ≤ bound) (raw : Word)
    (g : GainQ) (c : Millis) : (measureResponse table raw g c).q = 255 ∨
      ∃ lux : Lux, lux.toNat ≤ 65535 * bound / 10000 ∧ (measureResponse table raw g c).q = measureLux lux := by
  cases h : rawToLux table raw g c with
  | none => exact .inl (by rw [measureResponse, h]; rfl)
  | some lux => exact .inr ⟨lux, rawToLux_le htable h, by rw [measureResponse_of_some h]; rfl⟩

/-- The results of `measure` jump at the threshold (R106). -/
theorem measureLux_jump (h : lux.toNat ≤ 294568) :
    (measureLux lux).toNat ≤ 1000 ∨ 1076 ≤ (measureLux lux).toNat := by
  obtain hle | hgt := le_or_gt lux.toNat 1000
  · rw [measureLux_of_le hle]
    exact .inl hle
  · rw [measureLux_of_gt hgt, compensate_toNat h, ← compensated_1001]
    exact .inr (compensated_mono hgt)

theorem measureLux_le (h : lux.toNat ≤ 120794) : (measureLux lux).toNat ≤ 112784830 := by
  obtain hle | hgt := le_or_gt lux.toNat 1000
  · rw [measureLux_of_le hle]
    omega
  · rw [measureLux_of_gt hgt, compensate_toNat (by omega), ← compensated_120794]
    exact compensated_mono h

/-! ## The engine's operations on an idle core -/

theorem exec_selectConversionConstant_of_some (hs : s.Idle) (h : selectConstant convTable g c = some m) :
    exec (.selectConversionConstant g c) s = .next (responded s .ok (m.setWidth 32)) :=
  exec_eq_responded hs rfl (by rw [h]; rfl)

theorem exec_selectConversionConstant_of_unsupported (hs : s.Idle) (h : Unsupported g ∨ UnsupportedTime c) :
    exec (.selectConversionConstant g c) s = .next (responded s .unknown 0xFF) :=
  exec_eq_responded hs rfl (by rw [selectConstant_eq_none_iff.mpr h]; rfl)

theorem exec_rawToLux_of_some (hs : s.Idle) (h : rawToLux convTable raw g c = some lux) :
    exec (.rawToLux raw g c) s = .next (responded s .ok lux) :=
  exec_eq_responded hs rfl (by rw [h]; rfl)

theorem exec_rawToLux_of_unsupported (hs : s.Idle) (raw : Word) (h : Unsupported g ∨ UnsupportedTime c) :
    exec (.rawToLux raw g c) s = .next (responded s .unknown 0xFF) :=
  exec_eq_responded hs rfl (by rw [rawToLux_eq_none_iff.mpr h]; rfl)

theorem exec_compensate (hs : s.Idle) (lux : Lux) :
    exec (.compensate lux) s = .next (responded s .ok (compensate lux)) :=
  exec_eq_responded hs rfl rfl

theorem exec_measure_of_some (hs : s.Idle) (h : rawToLux convTable raw g c = some lux) :
    exec (.measure raw g c) s = .next (responded s .ok (measureLux lux)) :=
  exec_eq_responded hs rfl (measureResponse_of_some h)

theorem exec_measure_of_unsupported (hs : s.Idle) (raw : Word) (h : Unsupported g ∨ UnsupportedTime c) :
    exec (.measure raw g c) s = .next (responded s .unknown 0xFF) :=
  exec_eq_responded hs rfl (measureResponse_of_unsupported convTable raw h)

/-- The response of an outcome determines its status and its value. -/
theorem next_responded_inj {st st' : Status} {q q' : Lux}
    (h : (.next (responded s st q) : Host.Outcome State Fault Refusal) = .next (responded s st' q')) :
    st = st' ∧ q = q' := by
  simpa [responded] using h

theorem rawToLux_eq_some_of_exec (hs : s.Idle)
    (h : exec (.rawToLux raw g c) s = .next (responded s .ok lux)) : rawToLux convTable raw g c = some lux := by
  cases hr : rawToLux convTable raw g c with
  | none =>
    rw [exec_rawToLux_of_unsupported hs raw (rawToLux_eq_none_iff.mp hr)] at h
    cases (next_responded_inj h).1
  | some lux' =>
    rw [exec_rawToLux_of_some hs hr] at h
    rw [(next_responded_inj h).2]

/-! ## `read_light` on an unrecognised time -/

theorem accept_settingKept (s : State) (i : Instr) : SettingKept s (s.accept i) := ⟨rfl, rfl, rfl, rfl⟩

/-- While SETTING is kept, its read as the transaction with answer `k` returns `settingWord s k` (R20, R165). -/
theorem settingReply_eq_settingWord {t : State} {k : Nat} (hs : s.session = .single) (h : SettingKept s t)
    (ha : t.answer 0 = s.answer k) : settingReply t = settingWord s k := by
  have hpowered : (!t.useAnswer.powered) = (s.setting.getLsbD 0 || s.settling) := by
    simp [State.powered, sdBit, h.setting, h.settling]
  rw [settingReply, arrive_single (h.session.trans hs), deviceReply, hpowered]
  simp [settingWord, ha, h.setting, h.settleReads, and_comm]

/-- A 4-bit field is recognised as a word only if it is recognised as bits (R53). -/
theorem mem_recognised_of_setWidth : ∀ v : BitVec 4, v.setWidth 16 ∈ ([0, 1, 2, 3, 8, 12] : List Word) →
    v ∈ ([0, 1, 2, 3, 8, 12] : List (BitVec 4)) := by
  decide

theorem decodeIntegrationTime_of_not_recognised {r : Word} (h : ¬ RecognisedTime r) :
    decodeIntegrationTime (itField r) = respUnknown := by
  have hfield : itField r = (r.extractLsb' 6 4).setWidth 16 := extractField_eq_extractLsb' r (by decide)
  have hnone : ITime.ofBits (itField r) = none := ITime.ofBits_eq_none fun v hv =>
    h (mem_recognised_of_setWidth _ (hfield ▸ mem_recognised_iff.mpr ⟨v, hv⟩))
  rw [decodeIntegrationTime, hnone]

theorem unsupportedTime_image : UnsupportedTime (respUnknown.q.setWidth 16) := by
  simp [UnsupportedTime, times, respUnknown]

/-- The image of an unrecognised time goes into `measure`, which answers with its own (R108, R125). -/
theorem exec_readLight_of_not_recognised (hs : s.Idle) (hsingle : s.session = .single)
    (hok : ∀ k, k < 3 → (s.answer k).completion = .ok) (h : ¬ RecognisedTime (settingWord s 2)) :
    ∃ t, exec .readLight s = .next t ∧ t.response = some respUnknown := by
  have hkept : SettingKept s (afterRead .setting (afterRead .ambientLight (s.accept .readLight))) :=
    ((accept_settingKept s _).trans (afterRead_settingKept (s := s.accept .readLight) hsingle _)).trans
      (afterRead_settingKept (by simpa) _)
  refine ⟨_, busOp_idle hs, ?_⟩
  rw [readLight_ok (s := s.accept .readLight) (hok 0 (by decide)) (hok 1 (by decide)) (hok 2 (by decide)), conclude,
    respond_response, settingReply_eq_settingWord (k := 2) hsingle hkept (by simp),
    decodeIntegrationTime_of_not_recognised h, measureResponse_of_unsupported _ _ (.inr unsupportedTime_image)]

/-! ## The obligations -/

/-- Settles O22: everything follows from `numerator_strictMono`, with value 0 at 0. -/
theorem polynomialIsPositiveAndIncreasing : Obligations.PolynomialIsPositiveAndIncreasing := by
  unfold Obligations.PolynomialIsPositiveAndIncreasing
  have hneg (x : Nat) : polyNeg x ≤ polyPos x := by
    have := polyPos_sub_polyNeg x
    have := numerator_nonneg x
    omega
  refine ⟨polyPos_sub_polyNeg, hneg, fun x y hxy => ?_, fun _ _ => compensated_mono, ?_⟩
  · have := numerator_strictMono hxy
    have := polyPos_sub_polyNeg x
    have := polyPos_sub_polyNeg y
    have := hneg x
    omega
  · intro s x y p q hs hxy hy hp hq
    obtain ⟨-, rfl⟩ := next_responded_inj ((exec_compensate hs x).symm.trans hp)
    obtain ⟨-, rfl⟩ := next_responded_inj ((exec_compensate hs y).symm.trans hq)
    rw [compensate_toNat hy, compensate_toNat (hxy.trans hy)]
    exact compensated_mono hxy

/-- Settles O21: both samples are multiplied by one constant. -/
theorem rawToLuxMonotone : Obligations.RawToLuxMonotone := by
  unfold Obligations.RawToLuxMonotone
  intro s g t raw raw' lux lux' hs hle h h'
  obtain ⟨m, hm, rfl⟩ := rawToLux_eq_some.mp (rawToLux_eq_some_of_exec hs h)
  obtain ⟨m', hm', rfl⟩ := rawToLux_eq_some.mp (rawToLux_eq_some_of_exec hs h')
  obtain rfl := Option.some.inj (hm.symm.trans hm')
  exact luxOf_mono m hle

/-- Settles O23: up to 294568 the floor fits the port. -/
theorem compensateResult : Obligations.CompensateResult := by
  unfold Obligations.CompensateResult
  refine ⟨fun _ _ _ _ => rfl, fun s x hs hx => ⟨compensate x, exec_compensate hs x, ?_⟩⟩
  rw [compensate_toNat hx]
  exact ⟨compensated_mul_le _, lt_compensated_succ_mul _⟩

/-- Settles O24: the floor is at least 2^32 at 294569 and increasing from there. -/
theorem compensateRunsBeyondItsRange : Obligations.CompensateRunsBeyondItsRange := by
  unfold Obligations.CompensateRunsBeyondItsRange
  refine fun s x hs hx => ⟨?_, compensate_beyond hx ▸ exec_compensate hs x⟩
  have hfloor : ((2 ^ 32 : Nat) : Int) ≤ compensated x.toNat := Int.ofNat_le.mpr (two_pow_le_compensated hx)
  exact (Int.mul_le_mul_of_nonneg_right hfloor (by decide)).trans (compensated_mul_le _)

/-- Settles O25: `raw_to_lux` has a value exactly on supported operands, and `measureLux` splits at the threshold. -/
theorem measureResult : Obligations.MeasureResult := by
  unfold Obligations.MeasureResult
  refine ⟨fun _ _ _ _ => rfl, fun s raw g t hs => ⟨exec_measure_of_unsupported hs raw, fun h => ?_⟩⟩
  rw [← rawToLux_eq_none_iff (table := convTable) (raw := raw)] at h
  obtain ⟨lux, hlux⟩ := Option.ne_none_iff_exists'.mp h
  refine ⟨lux, exec_rawToLux_of_some hs hlux, fun hle => ?_, fun hgt => ?_⟩
  · rw [exec_measure_of_some hs hlux, measureLux_of_le hle]
  · rw [exec_measure_of_some hs hlux, measureLux_of_gt hgt, exec_compensate hs]

/-- Settles O26: the image is 255, and a lux that the table allows meets `measureLux_jump`. -/
theorem noResultBetweenThresholdAndJump : Obligations.NoResultBetweenThresholdAndJump := by
  unfold Obligations.NoResultBetweenThresholdAndJump
  intro table htable raw g t
  obtain h | ⟨lux, hle, h⟩ := measureResponse_q_cases htable raw g t <;> rw [h]
  · exact .inl (by decide)
  · exact measureLux_jump (hle.trans (by decide))

/-- Settles O27: the bound of `rawToLux_le` at each bound on the cells, and `measureLux_le` above it. -/
theorem engineRanges : Obligations.EngineRanges := by
  unfold Obligations.EngineRanges
  refine ⟨fun row col => ⟨convTableRef_le row col, convTableGK_le row col⟩,
    fun table htable raw g t => ⟨fun _ => rawToLux_le htable, ?_⟩,
    (compensate_toNat (by decide)).trans compensated_120794, by decide,
    fun table _ _ _ _ => rawToLux_le fun row col => Nat.le_of_lt_succ (table row col).isLt,
    fun _ htable _ _ _ _ h => (rawToLux_le htable h).trans (by decide), by decide⟩
  obtain h | ⟨lux, hle, h⟩ := measureResponse_q_cases htable raw g t <;> rw [h]
  · decide
  · exact measureLux_le hle

/-- Settles O28: the lookup fails on an unsupported operand, and the image of an unrecognised time is one. -/
theorem unknownPropagates : Obligations.UnknownPropagates := by
  unfold Obligations.UnknownPropagates
  exact fun s hs =>
    ⟨fun raw g t h => ⟨exec_selectConversionConstant_of_unsupported hs h, exec_rawToLux_of_unsupported hs raw h,
      exec_measure_of_unsupported hs raw h⟩, exec_readLight_of_not_recognised hs⟩

/-- Settles O18: the cell by `selectConstant_of_mem`, UNKNOWN by `selectConstant_eq_none_iff`. -/
theorem selectConversionConstantResult : Obligations.SelectConversionConstantResult := by
  unfold Obligations.SelectConversionConstantResult
  exact ⟨fun _ _ _ _ => rfl, fun s hs =>
    ⟨fun _ _ _ _ hg ht => exec_selectConversionConstant_of_some hs (selectConstant_of_mem convTable hg ht),
      fun _ _ => exec_selectConversionConstant_of_unsupported hs⟩⟩

/-- Settles O19: each pinned pair is a column and a row, and the tables are compared cell by cell. -/
theorem pinnedCellResults : Obligations.PinnedCellResults := by
  unfold Obligations.PinnedCellResults
  have hx2 : (0x0010, 0) ∈ columns := by decide
  have hx1 : (0x0008, 1) ∈ columns := by decide
  have hx0125 : (0x0001, 3) ∈ columns := by decide
  have hms800 : (800, 0) ∈ rows := by decide
  have hms100 : (100, 3) ∈ rows := by decide
  have hms25 : (25, 5) ∈ rows := by decide
  refine ⟨fun s raw hs => ⟨?_, ?_, ?_, ?_, ?_, ?_⟩, by decide, by decide, by decide, convTableGK_toNat,
    fun _ _ h => if_neg h⟩
  · exact exec_selectConversionConstant_of_some hs (selectConstant_of_mem convTable hx2 hms800)
  · exact exec_selectConversionConstant_of_some hs (selectConstant_of_mem convTable hx1 hms100)
  · exact exec_selectConversionConstant_of_some hs (selectConstant_of_mem convTable hx0125 hms25)
  · exact exec_rawToLux_of_some hs (rawToLux_of_mem convTable raw hx2 hms800)
  · exact exec_rawToLux_of_some hs (rawToLux_of_mem convTable raw hx1 hms100)
  · exact exec_rawToLux_of_some hs (rawToLux_of_mem convTable raw hx0125 hms25)

/-- Settles O20: `luxOf_toNat` is the floor of the quotient by 10000. -/
theorem rawToLuxResult : Obligations.RawToLuxResult := by
  unfold Obligations.RawToLuxResult
  refine ⟨fun _ _ _ _ => rfl, fun s hs => ⟨fun raw g col t row hg ht => ?_, fun raw _ _ =>
    exec_rawToLux_of_unsupported hs raw⟩⟩
  refine ⟨_, exec_rawToLux_of_some hs (rawToLux_of_mem convTable raw hg ht), ?_⟩
  rw [luxOf_toNat]
  exact ⟨Nat.mul_div_le _ _, Nat.lt_mul_div_succ _ (by decide)⟩

end Sys2Proof.Machine
end

section
/-! PROOFS of the bus operations family, the bus activity (O40). Each transaction causes one event; a sequence that goes
through causes a whole row of R127's table (`WholeRow`), and one that does not an initial part that its last event cuts
short (`CutRow`). `begin` alone answers a failure itself and is treated apart. -/

open Sys2Proof.Claims

namespace Sys2Proof.Machine

variable {s t : State} {i : Instr} {run : State → Tx Response} {g : GainQ} {c : Millis} {fb : Word}

/-! ## The operations, each as the sequence it runs; the setters by what their operand is -/

theorem exec_setGain_of_some {x : Gain} (h : Gain.ofQ g = some x) :
    exec (.setGain g) s = busOp (.setGain g) (writeField gainKeep x.bits gainShift) s := by
  rw [exec, execSetGain, h]

theorem exec_setGain_of_none (h : Gain.ofQ g = none) : exec (.setGain g) s = pureOp respRejected s := by
  rw [exec, execSetGain, h]

theorem exec_setIntegrationTime_of_some {x : ITime} (h : ITime.ofMs c = some x) :
    exec (.setIntegrationTime c) s = busOp (.setIntegrationTime c) (writeField itKeep x.bits itShift) s := by
  rw [exec, execSetIntegrationTime, h]

theorem exec_setIntegrationTime_of_none (h : ITime.ofMs c = none) :
    exec (.setIntegrationTime c) s = pureOp respRejected s := by
  rw [exec, execSetIntegrationTime, h]

theorem exec_powerOn : exec .powerOn s =
    busOp .powerOn (fun u => (powerOnSequence u).bind fun _ v => .ok (respOk 0) v) s := rfl

theorem exec_readLight : exec .readLight s = busOp .readLight readLightSequence s := rfl

theorem exec_begin : exec .begin s = busOp .begin beginSequence s := rfl

/-! ## The bus activity of a sequence -/

section
variable {row row' : List Kind} {es es' : List BusEvent} {d : Completion}

/-- The events are all of `row`, and each went through. -/
structure WholeRow (row : List Kind) (es : List BusEvent) : Prop where
  kinds : es.map kindOf = row
  ok : ∀ e ∈ es, endOf e = .ok

/-- The events are an initial part of `row`; the last one ended in `d`, and those before it went through. -/
structure CutRow (d : Completion) (row : List Kind) (es : List BusEvent) : Prop where
  kinds : es.map kindOf <+: row
  before : ∀ e ∈ es.dropLast, endOf e = .ok
  last : ∃ e, es.getLast? = some e ∧ endOf e = d

theorem WholeRow.append (h : WholeRow row es) (h' : WholeRow row' es') : WholeRow (row ++ row') (es ++ es') :=
  ⟨by rw [List.map_append, h.kinds, h'.kinds], fun e he => (List.mem_append.mp he).elim (h.ok e) (h'.ok e)⟩

theorem WholeRow.append_cut (h : WholeRow row es) (h' : CutRow d row' es') :
    CutRow d (row ++ row') (es ++ es') := by
  obtain ⟨e, hlast, he⟩ := h'.last
  have hne : es' ≠ [] := by
    rintro rfl
    cases hlast
  refine ⟨?_, fun e he => ?_, e, by simp [List.getLast?_append, hlast], he⟩
  · rw [List.map_append, h.kinds]
    exact (List.prefix_append_right_inj row).mpr h'.kinds
  · rw [List.dropLast_append_of_ne_nil hne] at he
    exact (List.mem_append.mp he).elim (h.ok e) (h'.before e)

theorem CutRow.append_row (h : CutRow d row es) (row' : List Kind) : CutRow d (row ++ row') es :=
  ⟨h.kinds.trans (List.prefix_append row row'), h.before, h.last⟩

theorem wholeRow_single {k : Kind} {e : BusEvent} (hk : kindOf e = k) (h : endOf e = .ok) : WholeRow [k] [e] :=
  ⟨by simp [hk], by simpa using h⟩

theorem cutRow_single {k : Kind} {e : BusEvent} (hk : kindOf e = k) (h : endOf e = d) : CutRow d [k] [e] :=
  ⟨by simp [hk], nofun, e, rfl, h⟩

/-- After the history `b` the sequence causes the events of `row`, cut short where it does not go through (R41,
R127). -/
def Tx.Follows {α : Type} (b : List BusEvent) (row : List Kind) : Tx α → Prop
  | .ok _ t => ∃ es, t.bus = b ++ es ∧ WholeRow row es
  | .failed t => ∃ es, t.bus = b ++ es ∧ CutRow .failed row es
  | .never t => ∃ es, t.bus = b ++ es ∧ CutRow .never row es

/-- What follows a complete row follows the history before it. -/
theorem Tx.Follows.after {α : Type} {b : List BusEvent} {x : Tx α} (hx : x.Follows (b ++ es) row')
    (hes : WholeRow row es) : x.Follows b (row ++ row') := by
  cases x <;> obtain ⟨es', hb, hes'⟩ := hx <;> refine ⟨es ++ es', by rw [hb, List.append_assoc], ?_⟩
  · exact hes.append hes'
  · exact hes.append_cut hes'
  · exact hes.append_cut hes'

theorem Tx.Follows.bind {α β : Type} {b : List BusEvent} {x : Tx α} {f : α → State → Tx β}
    (hx : x.Follows b row) (hf : ∀ v t, (f v t).Follows t.bus row') : (x.bind f).Follows b (row ++ row') := by
  cases x <;> obtain ⟨es, hb, hes⟩ := hx
  case ok v t =>
    have h := hf v t
    rw [hb] at h
    exact h.after hes
  case failed t => exact ⟨es, hb, hes.append_row row'⟩
  case never t => exact ⟨es, hb, hes.append_row row'⟩

theorem follows_nil {α : Type} (v : α) (t : State) : (Tx.ok v t).Follows t.bus [] :=
  ⟨[], by simp, rfl, nofun⟩

theorem regRead16_follows (r : ReadReg) (s : State) : (regRead16 r s).Follows s.bus [.read r.addr] := by
  rw [regRead16_eq]
  split
  · exact ⟨_, afterRead_bus r, wholeRow_single rfl rfl⟩
  · exact ⟨_, afterReadLost_bus r _, cutRow_single rfl rfl⟩
  · exact ⟨_, afterReadLost_bus r _, cutRow_single rfl rfl⟩

theorem regWrite16_follows (v : Word) (s : State) : (regWrite16 v s).Follows s.bus [.write 0x00] := by
  rw [regWrite16_eq]
  split
  case h_1 h => exact ⟨_, afterWrite_bus v, wholeRow_single rfl h⟩
  case h_2 h => exact ⟨_, afterWrite_bus v, cutRow_single rfl h⟩
  case h_3 h => exact ⟨_, afterWrite_bus v, cutRow_single rfl h⟩

theorem wait_follows {α : Type} (v : α) (t : State) : (Tx.ok v (wait 4 t)).Follows t.bus [.wait 4] :=
  ⟨_, rfl, wholeRow_single rfl rfl⟩

theorem updateSetting_follows (f : Word → Word) (s : State) :
    (updateSetting f s).Follows s.bus [.read 0x00, .write 0x00] :=
  (regRead16_follows .setting s).bind fun _ t => regWrite16_follows _ t

theorem powerOnSequence_follows (s : State) :
    (powerOnSequence s).Follows s.bus [.read 0x00, .write 0x00, .wait 4] :=
  (updateSetting_follows _ s).bind fun _ t => wait_follows () t

theorem readLightSequence_follows (s : State) :
    (readLightSequence s).Follows s.bus [.read 0x04, .read 0x00, .read 0x00] :=
  (regRead16_follows .ambientLight s).bind fun _ t => (regRead16_follows .setting t).bind fun _ u =>
    (regRead16_follows .setting u).bind fun _ v => follows_nil _ v

/-- Every sequence follows its row of R127's table; `begin`, which answers a failure itself, is left to
`beginSequence_activity`. -/
theorem Sequence.follows (h : Sequence i run) (hi : i ≠ .begin) : (run s).Follows s.bus (sequenceOf i) := by
  cases h with
  | setGain | setIntegrationTime => exact (updateSetting_follows _ s).bind fun _ t => follows_nil _ t
  | getGain | getIntegrationTime => exact (regRead16_follows .setting s).bind fun _ t => follows_nil _ t
  | powerOn => exact (powerOnSequence_follows s).bind fun _ t => follows_nil _ t
  | readLight => exact readLightSequence_follows s
  | begin => exact absurd rfl hi

/-- What R127 says of the events of an operation whose row is `row`: an initial part of it, in which only the last may
not have gone through, and did not if the row is not complete. -/
structure Activity (row : List Kind) (es : List BusEvent) : Prop where
  kinds : es.map kindOf <+: row
  before : ∀ e ∈ es.dropLast, endOf e = .ok
  short : es.length < row.length → ∃ e, es.getLast? = some e ∧ endOf e ≠ .ok

theorem WholeRow.length (h : WholeRow row es) : es.length = row.length := by
  rw [← h.kinds, List.length_map]

theorem WholeRow.activity (h : WholeRow row es) : Activity row es :=
  ⟨by rw [h.kinds], fun e he => h.ok e (List.mem_of_mem_dropLast he), fun hlt => absurd h.length hlt.ne⟩

theorem CutRow.activity (h : CutRow d row es) (hd : d ≠ .ok) : Activity row es := by
  obtain ⟨e, hlast, rfl⟩ := h.last
  exact ⟨h.kinds, h.before, fun _ => ⟨e, hlast, hd⟩⟩

/-- The last element of a row may end in any way. -/
theorem WholeRow.activity_concat {k : Kind} {e : BusEvent} (h : WholeRow row es) (hk : kindOf e = k) :
    Activity (row ++ [k]) (es ++ [e]) :=
  ⟨by simp [h.kinds, hk], by simpa using h.ok, fun hlt => by simp [h.length] at hlt⟩

@[simp] theorem conclude_bus (x : Tx Response) : (conclude x).bus = x.final.bus := by
  cases x <;> rfl

theorem Tx.Follows.activity {b : List BusEvent} {x : Tx Response} (h : x.Follows b row) :
    ∃ es, (conclude x).bus = b ++ es ∧ Activity row es := by
  cases x <;> obtain ⟨es, hb, hes⟩ := h
  · exact ⟨es, hb, hes.activity⟩
  · exact ⟨es, hb, hes.activity nofun⟩
  · exact ⟨es, hb, hes.activity nofun⟩

theorem probe_bus (s : State) : (probe s).Ends (·.bus = s.bus ++ [.probe Config.busAddr (s.answer 0).completion]) := by
  rw [probe_eq]
  cases (s.answer 0).completion <;> exact congrArg (· ++ _) (arrive_bus s)

/-- `begin` follows its row; cut short before the probe, it answers 0 or hangs (R126). -/
theorem beginSequence_activity (hs : s.response = none) :
    ∃ es, (conclude (beginSequence s)).bus = s.bus ++ es ∧ Activity (sequenceOf .begin) es ∧
      (es.length < 4 → (conclude (beginSequence s)).response = some ⟨.ok, 0⟩ ∨
        (conclude (beginSequence s)).response = none) := by
  have h := powerOnSequence_follows s
  have hu := powerOnSequence_untouched (Untouched.refl s)
  unfold beginSequence
  cases hx : powerOnSequence s <;> rw [hx] at h hu <;> obtain ⟨es, hb, hes⟩ := h
  case ok v t =>
    have hp : ((probe t).bind fun present u => Tx.ok (respSuccess present) u).Ends _ :=
      (probe_bus t).bind fun _ _ h => h
    refine ⟨es ++ [.probe Config.busAddr (t.answer 0).completion], ?_, hes.activity_concat rfl, fun hlt => ?_⟩
    · rw [conclude_bus, hp.final, hb, List.append_assoc]
    · simp [hes.length] at hlt
  case failed t => exact ⟨es, hb, (hes.append_row [.probe]).activity nofun, fun _ => .inl rfl⟩
  case never t => exact ⟨es, hb, (hes.append_row [.probe]).activity nofun, fun _ => .inr (hu.response.trans hs)⟩

end

/-! ## The response of a sequence -/

/-- The status of an operation that reached a result: OK, or UNKNOWN (R62). -/
def Response.IsResult (r : Response) : Prop := r.st = .ok ∨ r.st = .unknown

theorem decodeGain_isResult (fb : Word) : (decodeGain fb).IsResult := by
  unfold decodeGain
  split
  · exact .inl rfl
  · exact .inr rfl

theorem decodeIntegrationTime_isResult (fb : Word) : (decodeIntegrationTime fb).IsResult := by
  unfold decodeIntegrationTime
  split
  · exact .inl rfl
  · exact .inr rfl

theorem measureResponse_isResult (table : Fin 6 → Fin 4 → Word) (raw : Word) (g : GainQ) (c : Millis) :
    (measureResponse table raw g c).IsResult := by
  unfold measureResponse
  split
  · exact .inl rfl
  · exact .inr rfl

theorem beginSequence_yields_isResult : (beginSequence s).Yields Response.IsResult := by
  unfold beginSequence
  split
  · exact .bind fun _ _ => .inl rfl
  · exact .inl rfl
  · trivial

theorem Sequence.yields_isResult (h : Sequence i run) : (run s).Yields Response.IsResult := by
  cases h with
  | setGain | setIntegrationTime | powerOn => exact .bind fun _ _ => .inl rfl
  | getGain => exact .bind fun _ _ => decodeGain_isResult _
  | getIntegrationTime => exact .bind fun _ _ => decodeIntegrationTime_isResult _
  | readLight => exact .bind fun _ _ => .bind fun _ _ => .bind fun _ _ => measureResponse_isResult ..
  | begin => exact beginSequence_yields_isResult

/-- An operation that was accepted is not REJECTED (R120, R122). -/
theorem Sequence.not_rejected (h : Sequence i run) :
    (conclude (run (s.accept i))).response ≠ some ⟨.rejected, 0⟩ := by
  have hr : (run (s.accept i)).Yields Response.IsResult := h.yields_isResult
  have hu := h.untouched (s := s.accept i)
  intro heq
  cases hx : run (s.accept i) <;> rw [hx] at hr hu heq
  case ok r t =>
    obtain rfl := Option.some.inj heq
    obtain hst | hst := hr <;> cases hst
  case failed t => cases heq
  case never t => cases hu.response.symm.trans heq

/-- The ways an operation answers a next state: as one without a row in R127's table, as a rejected setter, or at the
end of its sequence. -/
theorem exec_next_cases_row (h : exec i s = .next t) :
    (sequenceOf i = [] ∧ ∃ r, t = s.respond r) ∨ (i ≠ .begin ∧ t = s.respond respRejected) ∨
      ∃ run, Sequence i run ∧ t = conclude (run (s.accept i)) := by
  cases i with
  | encodeGain | decodeGain | encodeIntegrationTime | decodeIntegrationTime | setField | powerOnWord
  | selectConversionConstant | rawToLux | compensate | measure =>
    exact .inl ⟨rfl, _, (whenIdle_eq_next.mp h).2.symm⟩
  | getGain => exact .inr (.inr ⟨_, .getGain, (whenIdle_eq_next.mp h).2.symm⟩)
  | getIntegrationTime => exact .inr (.inr ⟨_, .getIntegrationTime, (whenIdle_eq_next.mp h).2.symm⟩)
  | powerOn => exact .inr (.inr ⟨_, .powerOn, (whenIdle_eq_next.mp h).2.symm⟩)
  | readLight => exact .inr (.inr ⟨_, .readLight, (whenIdle_eq_next.mp h).2.symm⟩)
  | begin => exact .inr (.inr ⟨_, .begin, (whenIdle_eq_next.mp h).2.symm⟩)
  | setGain b =>
    cases hx : Gain.ofQ b with
    | none =>
      rw [exec_setGain_of_none hx] at h
      exact .inr (.inl ⟨nofun, (whenIdle_eq_next.mp h).2.symm⟩)
    | some x =>
      rw [exec_setGain_of_some hx] at h
      exact .inr (.inr ⟨_, .setGain hx, (whenIdle_eq_next.mp h).2.symm⟩)
  | setIntegrationTime c =>
    cases hx : ITime.ofMs c with
    | none =>
      rw [exec_setIntegrationTime_of_none hx] at h
      exact .inr (.inl ⟨nofun, (whenIdle_eq_next.mp h).2.symm⟩)
    | some x =>
      rw [exec_setIntegrationTime_of_some hx] at h
      exact .inr (.inr ⟨_, .setIntegrationTime hx, (whenIdle_eq_next.mp h).2.symm⟩)

/-- Settles O40: an operation without a row and a rejected setter cause no event; any other follows its row and is not
REJECTED. -/
theorem busActivityFollowsTheTable : Obligations.BusActivityFollowsTheTable := by
  unfold Obligations.BusActivityFollowsTheTable
  intro i s t _ h
  obtain ⟨hrow, r, rfl⟩ | ⟨hi, rfl⟩ | ⟨run, hrun, rfl⟩ := exec_next_cases_row h
  · refine ⟨[], by simp, List.nil_prefix, nofun, fun hlt => ?_, fun _ => rfl, ?_⟩
    · simp [hrow] at hlt
    · rintro rfl
      cases hrow
  · exact ⟨[], by simp, List.nil_prefix, nofun, fun _ => .inl ⟨rfl, rfl⟩, fun _ => rfl, fun h => absurd h hi⟩
  · have hrej := hrun.not_rejected (s := s)
    by_cases hi : i = .begin
    · subst hi
      cases hrun
      obtain ⟨es, hb, hact, hshort⟩ := beginSequence_activity (s := s.accept .begin) rfl
      exact ⟨es, hb, hact.kinds, hact.before, fun hlt => .inr (hact.short hlt), fun h => absurd h hrej,
        fun _ => hshort⟩
    · obtain ⟨es, hb, hact⟩ := (hrun.follows (s := s.accept i) hi).activity
      exact ⟨es, hb, hact.kinds, hact.before, fun hlt => .inr (hact.short hlt), fun h => absurd h hrej,
        fun h => absurd h hi⟩

end Sys2Proof.Machine
end

section
/-! PROOFS of the bus operations family, the results (O31 to O37, O51). An operation's next state is settled by the four
fields a sequence can change beside the answers it uses (`Reached.respond`); these are computed once for reads alone
(`OnlyRead`), for the read-modify-write, for the power-on sequence (`poweredOn`) and for `begin` (`begun`). -/

open Sys2Proof.Claims

namespace Sys2Proof.Machine

variable {s t : State} {i : Instr} {g : GainQ} {c : Millis} {fb : Word} {n : Nat}

/-! ## The whole next state, from the fields that an operation changes -/

/-- `t` comes from `s` by `n` transactions: they used `n` answers and left what `Untouched` names. -/
structure Reached (n : Nat) (s t : State) : Prop where
  untouched : Untouched s t
  answers : t.answers = s.answers.drop n
  drawn : t.drawn = s.drawn + n

theorem Reached.refl (s : State) : Reached 0 s s := ⟨.refl s, rfl, rfl⟩

/-- One transaction more. -/
theorem Reached.succ {u : State} (h : Reached n s t) (hu : Untouched t u) (ha : u.answers = t.answers.tail)
    (hd : u.drawn = t.drawn + 1) : Reached (n + 1) s u :=
  ⟨h.untouched.trans hu, by rw [ha, h.answers, List.tail_drop], by rw [hd, h.drawn, Nat.add_assoc]⟩

theorem Reached.afterRead (h : Reached n s t) (r : ReadReg) : Reached (n + 1) s (afterRead r t) :=
  h.succ (afterRead_untouched r) (by cases r <;> simp [Machine.afterRead, deviceAfterRead])
    (by cases r <;> simp [Machine.afterRead, deviceAfterRead])

theorem Reached.afterReadLost (h : Reached n s t) (r : ReadReg) (d : Completion) :
    Reached (n + 1) s (afterReadLost r d t) :=
  h.succ (afterReadLost_untouched r d) (arrive_answers t) (arrive_drawn t)

theorem Reached.afterWrite (h : Reached n s t) (v : Word) : Reached (n + 1) s (afterWrite v t) := by
  refine h.succ (afterWrite_untouched v) ?_ ?_ <;> unfold Machine.afterWrite <;> split <;> simp

theorem Reached.advance (h : Reached n s t) (vs : List Word) : Reached n s (t.advance vs) :=
  ⟨{ h.untouched with }, h.answers, h.drawn⟩

theorem Reached.wait (h : Reached n s t) (ms : Nat) : Reached n s (wait ms t) :=
  ⟨h.untouched.trans (wait_untouched ms), h.answers, h.drawn⟩

theorem Reached.probed (h : Reached n s t) (e : BusEvent) : Reached (n + 1) s (t.arrive.record e) :=
  h.succ (by constructor <;> simp) (arrive_answers t) (arrive_drawn t)

theorem Reached.answer (h : Reached n s t) (k : Nat) : t.answer k = s.answer (n + k) := by
  rw [State.answer, State.answer, h.answers, h.drawn, List.getElem?_drop, Nat.add_assoc]

/-- The end of an operation on an idle core: the answers it used, its response, and the fields it can change. -/
theorem Reached.respond {v a : Word} {b : Bool} {es : List BusEvent} (h : Reached n (s.accept i) t) (hs : s.Idle)
    (r : Response) (hset : t.setting = v) (hsettling : t.settling = b) (hsample : t.ambientLight = a)
    (hbus : t.bus = s.bus ++ es) :
    t.respond r = { used s n with
      response := some r, setting := v, settling := b, ambientLight := a, bus := s.bus ++ es } := by
  have hu := h.untouched
  exact State.ext hu.commands rfl hs.symm hset hu.hThresh hu.lThresh hu.powerSave hsample hu.whiteLight hu.interrupt
    hsettling hu.settleReads hu.session h.answers h.drawn hbus

@[simp] theorem advance_respond (s : State) (vs : List Word) (r : Response) : (s.advance vs).respond r = s.respond r :=
  rfl

/-! ## One read of SETTING, or a read and a write -/

theorem afterRead_setting_bus (s : State) : (afterRead .setting s).bus = s.bus ++ [readEvent 0x00 (settingReply s)] :=
  afterRead_bus .setting

theorem afterRead_ambientLight (s : State) : (afterRead .ambientLight s).ambientLight = (s.answer 0).draw := by
  simp [afterRead, deviceAfterRead, deviceReply]

theorem afterRead_ambientLight_bus (s : State) :
    (afterRead .ambientLight s).bus = s.bus ++ [readEvent 0x04 (s.answer 0).draw] :=
  afterRead_bus .ambientLight

theorem afterWrite_afterRead_bus (v : Word) (s : State) : (afterWrite v (afterRead .setting s)).bus =
    s.bus ++ [readEvent 0x00 (settingReply s), writeEvent v (s.answer 1).completion] := by
  rw [afterWrite_bus, afterRead_setting_bus, afterRead_answer, List.append_assoc]
  rfl

theorem afterWrite_settling {v : Word} (h : s.session = .single) : (afterWrite v s).settling =
    if (s.answer 0).completion = .ok || (s.answer 0).landed then settlingAfter s v else s.settling := by
  unfold afterWrite
  rw [arrive_single h]
  split <;> rfl

theorem SettingKept.settlingAfter (h : SettingKept s t) (v : Word) : settlingAfter t v = settlingAfter s v := by
  rw [Claims.settlingAfter, Claims.settlingAfter, h.setting, h.settling]

theorem afterWrite_afterRead_setting {v : Word} (h : s.session = .single) :
    (afterWrite v (afterRead .setting s)).setting =
      if (s.answer 1).completion = .ok || (s.answer 1).landed then v else s.setting := by
  have hkept := afterRead_settingKept h .setting
  rw [afterWrite_setting, arrive_setting (hkept.session.trans h), afterRead_answer, hkept.setting]

theorem afterWrite_afterRead_settling {v : Word} (h : s.session = .single) :
    (afterWrite v (afterRead .setting s)).settling =
      if (s.answer 1).completion = .ok || (s.answer 1).landed then settlingAfter s v else s.settling := by
  have hkept := afterRead_settingKept h .setting
  rw [afterWrite_settling (hkept.session.trans h), afterRead_answer, hkept.settling, hkept.settlingAfter]

theorem Reached.afterWrite_afterRead (s : State) (v : Word) :
    Reached 2 s (Machine.afterWrite v (Machine.afterRead .setting s)) :=
  ((Reached.refl s).afterRead .setting).afterWrite v

theorem regRead16_setting_ok (h0 : (s.answer 0).completion = .ok) :
    regRead16 .setting s = .ok (settingReply s) (afterRead .setting s) :=
  regRead16_ok .setting h0

/-! ## Reads alone -/

/-- Since `i` was accepted at `s`, `n` read transactions and nothing else have led to `t`: SETTING is as in `s`, the
sample register holds `a`, and the bus history has grown by `es`. -/
structure OnlyRead (s : State) (i : Instr) (n : Nat) (a : Word) (es : List BusEvent) (t : State) : Prop where
  reached : Reached n (s.accept i) t
  kept : SettingKept (s.accept i) t
  sample : t.ambientLight = a
  bus : t.bus = s.bus ++ es

theorem OnlyRead.accepted (s : State) (i : Instr) : OnlyRead s i 0 s.ambientLight [] (s.accept i) :=
  ⟨.refl _, .refl _, rfl, (List.append_nil s.bus).symm⟩

section
variable {a : Word} {es : List BusEvent}

/-- The end of an operation that wrote nothing. -/
theorem OnlyRead.respond (h : OnlyRead s i n a es t) (hs : s.Idle) (r : Response) :
    t.respond r = { used s n with response := some r, ambientLight := a, bus := s.bus ++ es } :=
  h.reached.respond hs r h.kept.setting h.kept.settling h.sample h.bus

theorem OnlyRead.answer_zero (h : OnlyRead s i n a es t) : t.answer 0 = s.answer n :=
  h.reached.answer 0

theorem OnlyRead.settingReply (h : OnlyRead s i n a es t) (hsingle : s.session = .single) :
    settingReply t = settingWord s n :=
  settingReply_eq_settingWord hsingle ((accept_settingKept s i).trans h.kept) h.answer_zero

theorem OnlyRead.readSetting (h : OnlyRead s i n a es t) (hsingle : s.session = .single) :
    OnlyRead s i (n + 1) a (es ++ [readEvent 0x00 (settingWord s n)]) (afterRead .setting t) where
  reached := h.reached.afterRead .setting
  kept := h.kept.trans (afterRead_settingKept (h.kept.session.trans hsingle) .setting)
  sample := afterRead_setting_ambientLight.trans h.sample
  bus := by rw [afterRead_setting_bus, h.bus, h.settingReply hsingle, List.append_assoc]

theorem OnlyRead.readSample (h : OnlyRead s i n a es t) (hsingle : s.session = .single) :
    OnlyRead s i (n + 1) (s.answer n).draw (es ++ [readEvent 0x04 (s.answer n).draw]) (afterRead .ambientLight t) where
  reached := h.reached.afterRead .ambientLight
  kept := h.kept.trans (afterRead_settingKept (h.kept.session.trans hsingle) .ambientLight)
  sample := by rw [afterRead_ambientLight, h.answer_zero]
  bus := by rw [afterRead_ambientLight_bus, h.bus, h.answer_zero, List.append_assoc]

theorem OnlyRead.lose (h : OnlyRead s i n a es t) (hsingle : s.session = .single) (reg : ReadReg) (d : Completion) :
    OnlyRead s i (n + 1) a (es ++ [lostRead reg.addr d]) (afterReadLost reg d t) where
  reached := h.reached.afterReadLost reg d
  kept := h.kept.trans (afterReadLost_settingKept (h.kept.session.trans hsingle) reg d)
  sample := (afterReadLost_ambientLight reg d).trans h.sample
  bus := by rw [afterReadLost_bus, h.bus, List.append_assoc]; rfl

end

/-! ## Getters and setters -/

section
variable (hs : s.Idle) (hsingle : s.session = .single)
include hsingle

theorem settingReply_accept (i : Instr) : settingReply (s.accept i) = settingWord s 0 :=
  settingReply_eq_settingWord hsingle (accept_settingKept s i) rfl

include hs

/-- The end of a read-modify-write whose read went through: SETTING is new if the write went through, and
otherwise old or new as the environment says (R147). -/
theorem respond_afterWrite_afterRead (i : Instr) (v : Word) (r : Response) :
    (afterWrite v (afterRead .setting (s.accept i))).respond r =
      { used s 2 with
        response := some r
        setting := if (s.answer 1).completion = .ok || (s.answer 1).landed then v else s.setting
        settling := if (s.answer 1).completion = .ok || (s.answer 1).landed then settlingAfter s v else s.settling
        bus := s.bus ++ [readEvent 0x00 (settingWord s 0), writeEvent v (s.answer 1).completion] } :=
  (Reached.afterWrite_afterRead (s.accept i) v).respond hs r (afterWrite_afterRead_setting hsingle)
    (afterWrite_afterRead_settling hsingle) ((afterWrite_ambientLight v).trans afterRead_setting_ambientLight)
    (by rw [afterWrite_afterRead_bus, settingReply_accept hsingle]; rfl)

theorem getterRuns {resp : Word → Response}
    (hi : exec i s = busOp i (fun u => (regRead16 .setting u).bind fun r v => .ok (resp r) v) s) :
    GetterRuns i resp s := by
  refine ⟨fun h0 => ?_, fun h0 => ?_⟩ <;> rw [hi, busOp_idle hs]
  · rw [regRead16_setting_ok (s := s.accept i) h0, Tx.bind, conclude, settingReply_accept hsingle]
    exact congrArg _ (((OnlyRead.accepted s i).readSetting hsingle).respond hs _)
  · rw [regRead16_failed (s := s.accept i) _ h0, Tx.bind, conclude]
    exact congrArg _ (((OnlyRead.accepted s i).lose hsingle .setting .failed).respond hs _)

theorem setterRuns {f : Word → Word} {keep : Word} {sh : BitVec 4}
    (hi : exec i s = busOp i (writeField keep fb sh) s) (hf : ∀ r, f r = setField r keep fb sh) :
    SetterRuns i f s := by
  obtain rfl : f = fun r => setField r keep fb sh := funext hf
  have hword := settingReply_accept hsingle i
  refine ⟨fun h0 h1 => ?_, fun h0 h1 => ?_, fun h0 => ?_⟩ <;> rw [hi, busOp_idle hs, writeField]
  · rw [updateSetting_ok (s := s.accept i) _ h0 h1, hword, Tx.bind, conclude, advance_respond,
      respond_afterWrite_afterRead hs hsingle, h1]
    rfl
  · rw [updateSetting_writeFailed (s := s.accept i) _ h0 h1, hword, Tx.bind, conclude,
      respond_afterWrite_afterRead hs hsingle, h1]
    rfl
  · rw [updateSetting_readFailed (s := s.accept i) _ h0, Tx.bind, conclude]
    exact congrArg _ (((OnlyRead.accepted s i).lose hsingle .setting .failed).respond hs _)

end

/-! ## The power-on sequence and `begin` -/

/-- The machine after the whole power-on sequence (R124). -/
def poweredOn (s : State) : State :=
  wait 4 ((afterWrite (powerOnWord (settingReply s)) (afterRead .setting s)).advance [])

theorem Reached.poweredOn (s : State) : Reached 2 s (poweredOn s) :=
  ((Reached.afterWrite_afterRead s _).advance []).wait 4

theorem poweredOn_setting (h1 : (s.answer 1).completion = .ok) :
    (poweredOn s).setting = powerOnWord (settingReply s) :=
  afterWrite_setting_ok _ (by simpa using h1)

@[simp] theorem poweredOn_settling (s : State) : (poweredOn s).settling = false := by
  simp [poweredOn]

@[simp] theorem poweredOn_ambientLight (s : State) : (poweredOn s).ambientLight = s.ambientLight := by
  simp [poweredOn]

@[simp] theorem poweredOn_session (s : State) : (poweredOn s).session = s.session :=
  (Reached.poweredOn s).untouched.session

@[simp] theorem poweredOn_answer (s : State) (k : Nat) : (poweredOn s).answer k = s.answer (k + 2) := by
  simp [poweredOn]

theorem poweredOn_bus (h1 : (s.answer 1).completion = .ok) : (poweredOn s).bus =
    s.bus ++ [readEvent 0x00 (settingReply s), writeEvent (powerOnWord (settingReply s)) .ok, .wait 4] := by
  rw [poweredOn, wait_bus, advance_bus, afterWrite_afterRead_bus, h1, List.append_assoc]
  rfl

theorem powerOnSequence_ok (h0 : (s.answer 0).completion = .ok) (h1 : (s.answer 1).completion = .ok) :
    powerOnSequence s = .ok () (poweredOn s) := by
  rw [powerOnSequence, updateSetting_ok _ h0 h1, Tx.bind, poweredOn]

theorem powerOnSequence_writeFailed (h0 : (s.answer 0).completion = .ok) (h1 : (s.answer 1).completion = .failed) :
    powerOnSequence s = .failed (afterWrite (powerOnWord (settingReply s)) (afterRead .setting s)) := by
  rw [powerOnSequence, updateSetting_writeFailed _ h0 h1, Tx.bind]

theorem powerOnSequence_readFailed (h0 : (s.answer 0).completion = .failed) :
    powerOnSequence s = .failed (afterReadLost .setting .failed s) := by
  rw [powerOnSequence, updateSetting_readFailed _ h0, Tx.bind]

/-- The machine after the whole sequence of `begin` (R126). -/
def begun (s : State) : State :=
  ((poweredOn s).arrive.record (.probe Config.busAddr (s.answer 2).completion)).advance []

theorem Reached.begun (s : State) : Reached 3 s (begun s) := ((Reached.poweredOn s).probed _).advance []

theorem begun_setting (hsingle : s.session = .single) (h1 : (s.answer 1).completion = .ok) :
    (begun s).setting = powerOnWord (settingReply s) := by
  rw [begun, advance_setting, record_setting, arrive_setting (by simpa), poweredOn_setting h1]

/-- Only what another master writes before the probe outlives the core's own write (R166). -/
theorem begun_setting_shared (hshared : s.session = .shared) (h1 : (s.answer 1).completion = .ok) :
    (begun s).setting = (s.answer 2).foreign.getD (powerOnWord (settingReply s)) := by
  rw [begun, advance_setting, record_setting, arrive_setting_shared (by simpa), poweredOn_answer,
    poweredOn_setting h1]

theorem begun_settling (hsingle : s.session = .single) : (begun s).settling = false := by
  rw [begun, advance_settling, record_settling, arrive_settling (by simpa), poweredOn_settling]

theorem begun_ambientLight (s : State) : (begun s).ambientLight = s.ambientLight := by
  simp [begun]

theorem begun_bus (h1 : (s.answer 1).completion = .ok) : (begun s).bus =
    s.bus ++ [readEvent 0x00 (settingReply s), writeEvent (powerOnWord (settingReply s)) .ok, .wait 4,
      .probe Config.busAddr (s.answer 2).completion] := by
  rw [begun, advance_bus, record_bus, arrive_bus, poweredOn_bus h1, List.append_assoc]
  rfl

/-- A probe that completes tells whether the device is present (R40). -/
theorem probe_of_ne_never (h : (s.answer 0).completion ≠ .never) :
    probe s = .ok (decide ((s.answer 0).completion = .ok))
      ((s.arrive.record (.probe Config.busAddr (s.answer 0).completion)).advance []) := by
  rw [probe_eq]
  cases hc : (s.answer 0).completion with
  | ok | failed => rfl
  | never => exact absurd hc h

theorem beginSequence_ok (h0 : (s.answer 0).completion = .ok) (h1 : (s.answer 1).completion = .ok)
    (h2 : (s.answer 2).completion ≠ .never) :
    beginSequence s = .ok (respSuccess (decide ((s.answer 2).completion = .ok))) (begun s) := by
  rw [beginSequence, powerOnSequence_ok h0 h1]
  dsimp only
  rw [probe_of_ne_never (by simpa using h2), poweredOn_answer, Tx.bind, begun]

theorem beginSequence_of_failed (h : powerOnSequence s = .failed t) : beginSequence s = .ok (respSuccess false) t := by
  rw [beginSequence, h]

theorem respSuccess_decide (p : Prop) [Decidable p] : respSuccess (decide p) = ⟨.ok, if p then 1 else 0⟩ := by
  simp [respSuccess, respOk]

/-! ## SETTING in a shared session -/

/-- A write that did not land leaves what another master wrote last (R166). -/
theorem afterWrite_afterRead_setting_shared (hshared : s.session = .shared) (v : Word) :
    (afterWrite v (afterRead .setting s)).setting =
      if (s.answer 1).completion = .ok || (s.answer 1).landed then v
      else (s.answer 1).foreign.getD s.arrive.setting := by
  rw [afterWrite_setting, arrive_setting_shared (by simpa), afterRead_answer, afterRead_setting]

theorem settingReply_of_storage (h : s.settleReads = .storage) : settingReply s = s.arrive.setting := by
  simp [settingReply, deviceReply, h]

/-! ## What the fields of a SETTING word decode to -/

theorem gainField_eq (r : Word) : gainField r = (r.extractLsb' 11 2).setWidth 16 :=
  extractField_eq_extractLsb' r (by decide)

theorem itField_eq (r : Word) : itField r = (r.extractLsb' 6 4).setWidth 16 :=
  extractField_eq_extractLsb' r (by decide)

/-- The 2-bit GAIN field has no unrecognised value (R52, R121). -/
theorem decodeGain_setWidth : ∀ v : BitVec 2, decodeGain (v.setWidth 16) =
    if v = 0 then ⟨.ok, 0x0008⟩ else if v = 1 then ⟨.ok, 0x0010⟩ else if v = 2 then ⟨.ok, 0x0001⟩
    else ⟨.ok, 0x0002⟩ := by
  decide

/-- Ten of the sixteen values of the IT field are unrecognised (R53, R123). -/
theorem decodeIntegrationTime_setWidth : ∀ v : BitVec 4, decodeIntegrationTime (v.setWidth 16) =
    if v = 0 then ⟨.ok, 100⟩ else if v = 1 then ⟨.ok, 200⟩ else if v = 2 then ⟨.ok, 400⟩
    else if v = 3 then ⟨.ok, 800⟩ else if v = 8 then ⟨.ok, 50⟩ else if v = 12 then ⟨.ok, 25⟩
    else ⟨.unknown, 0x00FF⟩ := by
  decide

theorem decodeGain_of_mem (h : (g, fb) ∈ gains) : decodeGain fb = respWord g := by
  obtain ⟨x, rfl, rfl⟩ := mem_gains_iff.mp h
  rw [decodeGain, Gain.ofBits_bits]

theorem decodeIntegrationTime_of_mem (h : (c, fb) ∈ times) : decodeIntegrationTime fb = respWord c := by
  obtain ⟨x, rfl, rfl⟩ := mem_times_iff.mp h
  rw [decodeIntegrationTime, ITime.ofBits_bits]

@[simp] theorem respWord_q_setWidth (v : Word) : (respWord v).q.setWidth 16 = v := by
  simp [respWord, respOk]

theorem decodeGain_q_setWidth {r : Word} (h : (g, (r.extractLsb' 11 2).setWidth 16) ∈ gains) :
    (decodeGain (gainField r)).q.setWidth 16 = g := by
  rw [gainField_eq, decodeGain_of_mem h, respWord_q_setWidth]

/-- An unrecognised time goes in as its image 255 (R125). -/
theorem decodeIntegrationTime_q_setWidth {r : Word}
    (h : (c, (r.extractLsb' 6 4).setWidth 16) ∈ times ∨ c = 255 ∧ ¬ RecognisedTime r) :
    (decodeIntegrationTime (itField r)).q.setWidth 16 = c := by
  obtain h | ⟨rfl, h⟩ := h
  · rw [itField_eq, decodeIntegrationTime_of_mem h, respWord_q_setWidth]
  · rw [decodeIntegrationTime_of_not_recognised h]
    rfl

/-! ## The obligations -/

/-- Settles O31: a supported gain runs `setterRuns`; without one the setter is pure and rejects. -/
theorem setGainResult : Obligations.SetGainResult := by
  unfold Obligations.SetGainResult
  refine ⟨fun _ _ _ _ => rfl, fun s hs => ⟨fun g h => ?_, fun hsingle g fb h => ?_⟩⟩
  · rw [exec_setGain_of_none (Gain.ofQ_eq_none h)]
    exact pureOp_idle hs
  · obtain ⟨x, rfl, rfl⟩ := mem_gains_iff.mp h
    exact setterRuns hs hsingle (exec_setGain_of_some (Gain.ofQ_toQ x)) fun _ => rfl

/-- Settles O33: a supported time runs `setterRuns`; without one the setter is pure and rejects. -/
theorem setIntegrationTimeResult : Obligations.SetIntegrationTimeResult := by
  unfold Obligations.SetIntegrationTimeResult
  refine ⟨fun _ _ _ _ => rfl, fun s hs => ⟨fun t h => ?_, fun hsingle t fb h => ?_⟩⟩
  · rw [exec_setIntegrationTime_of_none (ITime.ofMs_eq_none h)]
    exact pureOp_idle hs
  · obtain ⟨x, rfl, rfl⟩ := mem_times_iff.mp h
    exact setterRuns hs hsingle (exec_setIntegrationTime_of_some (ITime.ofMs_toMs x)) fun _ => rfl

/-- Settles O32: `getterRuns` with the GAIN field, whose four values all decode. -/
theorem getGainResult : Obligations.GetGainResult := by
  unfold Obligations.GetGainResult
  refine ⟨fun _ _ _ _ => rfl, fun s hs hsingle => ?_⟩
  simp only [← decodeGain_setWidth, ← gainField_eq]
  exact getterRuns hs hsingle rfl

/-- Settles O34: `getterRuns` with the IT field, whose sixteen values decode or are UNKNOWN. -/
theorem getIntegrationTimeResult : Obligations.GetIntegrationTimeResult := by
  unfold Obligations.GetIntegrationTimeResult
  refine ⟨fun _ _ _ _ => rfl, fun s hs hsingle => ?_⟩
  simp only [← decodeIntegrationTime_setWidth, ← itField_eq]
  exact getterRuns hs hsingle rfl

/-- Settles O35: the sequence goes through to `poweredOn`, or stops at its write or at its read. -/
theorem powerOnResult : Obligations.PowerOnResult := by
  unfold Obligations.PowerOnResult
  refine ⟨fun _ _ _ _ => rfl, fun s hs hsingle => ?_⟩
  dsimp only
  have hword := settingReply_accept hsingle .powerOn
  rw [← powerOnWord_eq, exec_powerOn, busOp_idle hs]
  refine ⟨fun h0 h1 => ?_, fun h0 h1 => ?_, fun h0 => ?_⟩
  · rw [powerOnSequence_ok (s := s.accept .powerOn) h0 h1, Tx.bind, conclude, ← hword]
    exact congrArg _ ((Reached.poweredOn _).respond hs _ (poweredOn_setting h1) (poweredOn_settling _)
      (poweredOn_ambientLight _) (poweredOn_bus h1))
  · rw [powerOnSequence_writeFailed (s := s.accept .powerOn) h0 h1, Tx.bind, conclude, hword,
      respond_afterWrite_afterRead hs hsingle, h1]
    rfl
  · rw [powerOnSequence_readFailed (s := s.accept .powerOn) h0, Tx.bind, conclude]
    exact congrArg _ (((OnlyRead.accepted s _).lose hsingle .setting .failed).respond hs _)

/-- Settles O37: the sequence goes through to `begun`, or stops at its write or at its read with result 0. -/
theorem beginResult : Obligations.BeginResult := by
  unfold Obligations.BeginResult
  refine ⟨fun _ _ _ _ => rfl, fun s hs hsingle => ?_⟩
  dsimp only
  have hword := settingReply_accept hsingle .begin
  rw [← powerOnWord_eq, exec_begin, busOp_idle hs]
  refine ⟨fun h0 h1 h2 => ?_, fun h0 h1 => ?_, fun h0 => ?_⟩
  · rw [beginSequence_ok (s := s.accept .begin) h0 h1 h2, conclude, respSuccess_decide, ← hword]
    exact congrArg _ ((Reached.begun _).respond hs _ (begun_setting hsingle h1) (begun_settling hsingle)
      (begun_ambientLight _) (begun_bus h1))
  · rw [beginSequence_of_failed (powerOnSequence_writeFailed (s := s.accept .begin) h0 h1), conclude, hword,
      respond_afterWrite_afterRead hs hsingle, h1]
    rfl
  · rw [beginSequence_of_failed (powerOnSequence_readFailed (s := s.accept .begin) h0), conclude]
    exact congrArg _ (((OnlyRead.accepted s _).lose hsingle .setting .failed).respond hs _)

/-- Settles O36: each SETTING read returns `settingWord`, and `measure` gets the values it decodes to. -/
theorem readLightResult : Obligations.ReadLightResult := by
  unfold Obligations.ReadLightResult
  refine ⟨fun _ _ _ _ => rfl, fun s hs hsingle => ?_⟩
  dsimp only
  have h1 := (OnlyRead.accepted s .readLight).readSample hsingle
  have h2 := h1.readSetting hsingle
  rw [exec_readLight, busOp_idle hs]
  refine ⟨fun hc0 hc1 hc2 g t hg ht => ?_, fun hc0 hc1 hc2 => ?_, fun hc0 hc1 => ?_, fun hc0 => ?_⟩
  · refine ⟨measureResponse convTable (s.answer 0).draw g t, pureOp_idle hs, ?_⟩
    rw [readLight_ok (s := s.accept .readLight) hc0 hc1 hc2, conclude, h1.settingReply hsingle,
      h2.settingReply hsingle, decodeGain_q_setWidth hg, decodeIntegrationTime_q_setWidth ht]
    exact congrArg _ ((h2.readSetting hsingle).respond hs _)
  · rw [(readLight_third (s := s.accept .readLight) hc0 hc1).1 hc2, conclude]
    exact congrArg _ ((h2.lose hsingle .setting .failed).respond hs _)
  · rw [(readLight_second (s := s.accept .readLight) hc0).1 hc1, conclude]
    exact congrArg _ ((h1.lose hsingle .setting .failed).respond hs _)
  · rw [(readLight_first (s := s.accept .readLight)).1 hc0, conclude]
    exact congrArg _ (((OnlyRead.accepted s _).lose hsingle .ambientLight .failed).respond hs _)

/-- Settles O51: what is read and what is left follow from where a foreign write lands (`arrive_setting_shared`). -/
theorem beginResultInSharedSession : Obligations.BeginResultInSharedSession := by
  unfold Obligations.BeginResultInSharedSession
  intro s hs hshared hstorage
  dsimp only
  have hfound : (s.accept .begin).arrive.setting = (s.answer 0).foreign.getD s.setting :=
    arrive_setting_shared hshared
  have hword : settingReply (s.accept .begin) = (s.answer 0).foreign.getD s.setting :=
    (settingReply_of_storage (s := s.accept .begin) hstorage).trans hfound
  rw [← powerOnWord_eq, ← hword, exec_begin, busOp_idle hs]
  refine ⟨fun h0 h1 h2 => ?_, fun h0 h1 => ?_, fun h0 => ?_⟩ <;> refine ⟨_, rfl, ?_⟩
  · rw [beginSequence_ok (s := s.accept .begin) h0 h1 h2, conclude, respSuccess_decide]
    exact ⟨rfl, begun_setting_shared hshared h1, begun_bus h1⟩
  · rw [beginSequence_of_failed (powerOnSequence_writeFailed (s := s.accept .begin) h0 h1), conclude]
    refine ⟨rfl, ?_, ?_⟩
    · rw [respond_setting, afterWrite_afterRead_setting_shared (by simpa), hfound, hword]
      simp [h1]
    · rw [respond_bus, afterWrite_afterRead_bus, accept_answer, h1]
      rfl
  · rw [beginSequence_of_failed (powerOnSequence_readFailed (s := s.accept .begin) h0), conclude]
    refine ⟨rfl, ?_, afterReadLost_bus _ _⟩
    rw [respond_setting, afterReadLost_setting, hfound, hword]

end Sys2Proof.Machine
end

section
/-! PROOFS of the exceptions family (O39, O41). An operation in flight is followed by its place and the values it has
read (`Held`); how a bus operation reports the end of its last transaction is said once (`Reported`). `begin` alone
answers a failure itself and is treated apart. -/

open Sys2Proof.Claims

namespace Sys2Proof.Machine

variable {s t : State} {i : Instr} {run : State → Tx Response} {n : Nat} {vs : List Word}
  {row : List Kind}

/-! ## The operations that run a sequence -/

/-- The operation is a bus operation and no setter with an unsupported operand (R120, R122). -/
structure RunsTransactions (i : Instr) : Prop where
  bus : i.group = .bus
  gain : ∀ g, i = .setGain g → ¬ Unsupported g
  time : ∀ c, i = .setIntegrationTime c → ¬ UnsupportedTime c

theorem Response.IsResult.st_ne_busError {r : Response} (h : r.IsResult) : r.st ≠ .busError := by
  obtain h | h := h <;> rw [h] <;> nofun

theorem encodeGain_st_ne_busError (b : GainQ) : (encodeGain b).st ≠ .busError := by
  unfold encodeGain
  split <;> nofun

theorem encodeIntegrationTime_st_ne_busError (c : Millis) : (encodeIntegrationTime c).st ≠ .busError := by
  unfold encodeIntegrationTime
  split <;> nofun

/-- Everything `exec` can do, and when; a response without a transaction is no BUS_ERROR (R143). -/
theorem exec_eq_pureOp_or_sequence (i : Instr) (s : State) :
    (∃ r, r.st ≠ .busError ∧ exec i s = pureOp r s ∧ ¬ RunsTransactions i) ∨
      ∃ run, Sequence i run ∧ exec i s = busOp i run s := by
  cases i with
  | encodeGain b => exact .inl ⟨_, encodeGain_st_ne_busError b, rfl, nofun⟩
  | decodeGain a => exact .inl ⟨_, (decodeGain_isResult a).st_ne_busError, rfl, nofun⟩
  | encodeIntegrationTime c => exact .inl ⟨_, encodeIntegrationTime_st_ne_busError c, rfl, nofun⟩
  | decodeIntegrationTime a => exact .inl ⟨_, (decodeIntegrationTime_isResult a).st_ne_busError, rfl, nofun⟩
  | setField | powerOnWord | compensate =>
    refine .inl ⟨_, ?_, rfl, nofun⟩
    nofun
  | selectConversionConstant | rawToLux =>
    refine .inl ⟨_, ?_, rfl, nofun⟩
    split <;> nofun
  | measure a b c => exact .inl ⟨_, (measureResponse_isResult _ a b c).st_ne_busError, rfl, nofun⟩
  | getGain => exact .inr ⟨_, .getGain, rfl⟩
  | getIntegrationTime => exact .inr ⟨_, .getIntegrationTime, rfl⟩
  | powerOn => exact .inr ⟨_, .powerOn, rfl⟩
  | readLight => exact .inr ⟨_, .readLight, rfl⟩
  | begin => exact .inr ⟨_, .begin, rfl⟩
  | setGain b =>
    cases hx : Gain.ofQ b with
    | none =>
      exact .inl ⟨respRejected, nofun, exec_setGain_of_none hx,
        fun h => h.gain b rfl (Gain.ofQ_eq_none_iff.mp hx)⟩
    | some x => exact .inr ⟨_, .setGain hx, exec_setGain_of_some hx⟩
  | setIntegrationTime c =>
    cases hx : ITime.ofMs c with
    | none =>
      exact .inl ⟨respRejected, nofun, exec_setIntegrationTime_of_none hx,
        fun h => h.time c rfl (ITime.ofMs_eq_none_iff.mp hx)⟩
    | some x => exact .inr ⟨_, .setIntegrationTime hx, exec_setIntegrationTime_of_some hx⟩

/-! ## What a busy core holds -/

/-- Operation `i` is in flight after `n` elements of its sequence, holding the values `vs`, and the core shows no
response (R15, R66). -/
structure Held (i : Instr) (n : Nat) (vs : List Word) (t : State) : Prop where
  seq : t.seq = some ⟨i, n, vs⟩
  response : t.response = none

theorem held_accept (s : State) (i : Instr) : Held i 0 [] (s.accept i) := ⟨rfl, rfl⟩

theorem Held.afterRead (h : Held i n vs t) (r : ReadReg) :
    Held i (n + 1) (vs ++ [deviceReply r (t.answer 0) t.arrive]) (afterRead r t) :=
  ⟨by rw [afterRead_seq, h.seq]; rfl, (afterRead_response r).trans h.response⟩

theorem Held.readSetting {w : Word} (h : Held i n vs t) (hw : settingReply t = w) :
    Held i (n + 1) (vs ++ [w]) (Machine.afterRead .setting t) :=
  hw ▸ h.afterRead .setting

theorem Held.afterReadLost (h : Held i n vs t) (r : ReadReg) (d : Completion) : Held i n vs (afterReadLost r d t) :=
  ⟨(afterReadLost_seq r d).trans h.seq, (afterReadLost_response r d).trans h.response⟩

theorem Held.afterWrite (h : Held i n vs t) (v : Word) : Held i n vs (afterWrite v t) :=
  ⟨(afterWrite_seq v).trans h.seq, (afterWrite_response v).trans h.response⟩

theorem Held.advance (h : Held i n vs t) : Held i (n + 1) vs (t.advance []) :=
  ⟨by simp [h.seq], h.response⟩

theorem Held.wait (h : Held i n vs t) (ms : Nat) : Held i (n + 1) vs (wait ms t) :=
  Held.advance ⟨h.seq, h.response⟩

theorem Held.arrive_record (h : Held i n vs t) (e : BusEvent) : Held i n vs (t.arrive.record e) :=
  ⟨by simp [h.seq], by simp [h.response]⟩

/-! ## A sequence whose transaction never completes -/

theorem RunsTransactions.exists_sequence (h : RunsTransactions i) (s : State) :
    ∃ run, Sequence i run ∧ exec i s = busOp i run s :=
  (exec_eq_pureOp_or_sequence i s).resolve_left fun ⟨_, _, _, hn⟩ => hn h

/-- The core stays busy with an operation whose sequence does not end (R143). -/
theorem busOp_held (hs : s.Idle) (hx : run (s.accept i) = .never t) (ht : Held i n vs t) :
    ∃ t, busOp i run s = .next t ∧ t.seq = some ⟨i, n, vs⟩ ∧ t.response = none :=
  ⟨t, by rw [busOp_idle hs, hx, conclude], ht.seq, ht.response⟩

theorem powerOnSequence_readNever (h0 : (s.answer 0).completion = .never) :
    powerOnSequence s = .never (afterReadLost .setting .never s) := by
  rw [powerOnSequence, updateSetting_readNever _ h0, Tx.bind]

theorem powerOnSequence_writeNever (h0 : (s.answer 0).completion = .ok) (h1 : (s.answer 1).completion = .never) :
    powerOnSequence s = .never (afterWrite (powerOnWord (settingReply s)) (afterRead .setting s)) := by
  rw [powerOnSequence, updateSetting_writeNever _ h0 h1, Tx.bind]

theorem beginSequence_of_never (h : powerOnSequence s = .never t) : beginSequence s = .never t := by
  rw [beginSequence, h]

theorem beginSequence_probeNever (h0 : (s.answer 0).completion = .ok) (h1 : (s.answer 1).completion = .ok)
    (h2 : (s.answer 2).completion = .never) :
    beginSequence s = .never ((poweredOn s).arrive.record (.probe Config.busAddr .never)) := by
  rw [beginSequence, powerOnSequence_ok h0 h1]
  dsimp only
  rw [probe_eq, poweredOn_answer, h2]
  rfl

/-- Every sequence begins with a read (R127). -/
theorem Sequence.readNever (h : Sequence i run) (h0 : (s.answer 0).completion = .never) :
    ∃ r, run s = .never (afterReadLost r .never s) := by
  cases h with
  | setGain | setIntegrationTime => exact ⟨_, congrArg (Tx.bind · _) (updateSetting_readNever _ h0)⟩
  | getGain | getIntegrationTime => exact ⟨_, congrArg (Tx.bind · _) (regRead16_never _ h0)⟩
  | powerOn => exact ⟨_, congrArg (Tx.bind · _) (powerOnSequence_readNever h0)⟩
  | readLight => exact ⟨_, readLight_first.2 h0⟩
  | begin => exact ⟨_, beginSequence_of_never (powerOnSequence_readNever h0)⟩

/-- A write is the second transaction of a sequence, after a read of SETTING (R127). -/
theorem Sequence.writeNever (h : Sequence i run) (hi : sequenceOf i = .read 0x00 :: .write 0x00 :: row)
    (h0 : (s.answer 0).completion = .ok) (h1 : (s.answer 1).completion = .never) :
    ∃ v, run s = .never (afterWrite v (afterRead .setting s)) := by
  cases h with
  | setGain | setIntegrationTime => exact ⟨_, congrArg (Tx.bind · _) (updateSetting_writeNever _ h0 h1)⟩
  | powerOn => exact ⟨_, congrArg (Tx.bind · _) (powerOnSequence_writeNever h0 h1)⟩
  | begin => exact ⟨_, beginSequence_of_never (powerOnSequence_writeNever h0 h1)⟩
  | getGain | getIntegrationTime | readLight => cases hi

theorem exec_readNever (hs : s.Idle) (hsingle : s.session = .single) (hi : RunsTransactions i)
    (h0 : (s.answer 0).completion = .never) :
    ∃ t, exec i s = .next t ∧ t.seq = some ⟨i, 0, []⟩ ∧ t.response = none ∧ t.setting = s.setting := by
  obtain ⟨run, hrun, he⟩ := hi.exists_sequence s
  obtain ⟨r, hx⟩ := hrun.readNever (s := s.accept i) h0
  have hheld := (held_accept s i).afterReadLost r .never
  refine ⟨_, by rw [he, busOp_idle hs, hx, conclude], hheld.seq, hheld.response, ?_⟩
  rw [afterReadLost_setting, arrive_setting (by simpa), accept_setting]

theorem held_afterRead_setting (hsingle : s.session = .single) (i : Instr) :
    Held i 1 [settingWord s 0] (afterRead .setting (s.accept i)) :=
  (held_accept s i).readSetting (settingReply_accept hsingle i)

theorem exec_writeNever (hs : s.Idle) (hsingle : s.session = .single) (hi : RunsTransactions i)
    (hw : sequenceOf i = .read 0x00 :: .write 0x00 :: row) (h0 : (s.answer 0).completion = .ok)
    (h1 : (s.answer 1).completion = .never) :
    ∃ t, exec i s = .next t ∧ t.seq = some ⟨i, 1, [settingWord s 0]⟩ ∧ t.response = none := by
  obtain ⟨run, hrun, he⟩ := hi.exists_sequence s
  obtain ⟨v, hx⟩ := hrun.writeNever (s := s.accept i) hw h0 h1
  rw [he]
  exact busOp_held hs hx ((held_afterRead_setting hsingle i).afterWrite v)

/-! ## How the end of the last transaction is reported -/

/-- Operation `i` is in flight and the core shows no response. -/
def InProgress (i : Instr) (t : State) : Prop := ∃ n vs, Held i n vs t

theorem inProgress_advance (h : InProgress i t) : InProgress i (t.advance []) :=
  have ⟨_, _, h⟩ := h
  ⟨_, _, h.advance⟩

theorem regRead16_inProgress (r : ReadReg) (h : InProgress i t) : (regRead16 r t).Ends (InProgress i) :=
  have ⟨_, _, h⟩ := h
  regRead16_ends ⟨_, _, h.afterRead r⟩ fun d => ⟨_, _, h.afterReadLost r d⟩

theorem updateSetting_inProgress (f : Word → Word) (h : InProgress i t) : (updateSetting f t).Ends (InProgress i) :=
  have ⟨_, _, h⟩ := h
  updateSetting_ends (fun d => ⟨_, _, h.afterReadLost .setting d⟩) ⟨_, _, (h.afterRead .setting).afterWrite _⟩
    fun _ => inProgress_advance

theorem powerOnSequence_inProgress (h : InProgress i t) : (powerOnSequence t).Ends (InProgress i) :=
  powerOnSequence_ends (updateSetting_inProgress _ h) fun _ ⟨_, _, hu⟩ => ⟨_, _, hu.wait 4⟩

theorem probe_inProgress (h : InProgress i t) : (probe t).Ends (InProgress i) :=
  have ⟨_, _, h⟩ := h
  probe_ends (fun e => ⟨_, _, h.arrive_record e⟩) fun _ => inProgress_advance

/-- However a sequence ends, its operation is in flight until it is concluded (R66). -/
theorem Sequence.inProgress (hrun : Sequence i run) (h : InProgress i t) : (run t).Ends (InProgress i) := by
  cases hrun with
  | setGain | setIntegrationTime => exact writeField_ends (updateSetting_inProgress _ h)
  | getGain | getIntegrationTime => exact (regRead16_inProgress _ h).bind fun _ _ h1 => h1
  | powerOn => exact (powerOnSequence_inProgress h).bind fun _ _ h1 => h1
  | readLight =>
    exact (regRead16_inProgress _ h).bind fun _ _ h1 => (regRead16_inProgress _ h1).bind fun _ _ h2 =>
      (regRead16_inProgress _ h2).bind fun _ _ h3 => h3
  | begin => exact beginSequence_ends (powerOnSequence_inProgress h) fun _ => probe_inProgress

/-- The last event ended in `d`. -/
def LastEnded (d : Completion) (es : List BusEvent) : Prop := ∃ e, es.getLast? = some e ∧ endOf e = d

theorem LastEnded.unique {d d' : Completion} {es : List BusEvent} (h : LastEnded d es) (h' : LastEnded d' es) :
    d = d' := by
  obtain ⟨e, hlast, rfl⟩ := h
  obtain ⟨e', hlast', rfl⟩ := h'
  rw [Option.some.inj (hlast.symm.trans hlast')]

theorem LastEnded.eq_ok {d : Completion} {es : List BusEvent} (h : LastEnded d es) (hok : ∀ e ∈ es, endOf e = .ok) :
    d = .ok := by
  obtain ⟨e, hlast, rfl⟩ := h
  exact hok e (List.mem_of_getLast? hlast)

/-- How a state reports the events of its operation, where `failure` is the response to a failed transaction (R143). -/
inductive Reported (failure : Response) (es : List BusEvent) (t : State) : Prop
  | done (hok : ∀ e ∈ es, endOf e = .ok) (r : Response) (hr : t.response = some r) (hst : r.st ≠ .busError)
      (hne : r ≠ failure) (hseq : t.seq = none)
  | failed (hcut : ∀ e ∈ es.dropLast, endOf e = .ok) (hlast : LastEnded .failed es) (hr : t.response = some failure)
      (hseq : t.seq = none)
  | never (hcut : ∀ e ∈ es.dropLast, endOf e = .ok) (hlast : LastEnded .never es) (hr : t.response = none)
      (hseq : t.seq ≠ none)

section
variable {failure : Response} {es : List BusEvent}

theorem InProgress.reported (h : InProgress i t) {row : List Kind} (hes : CutRow .never row es) :
    Reported failure es t := by
  obtain ⟨n, vs, hseq, hr⟩ := h
  exact .never hes.before hes.last hr (by rw [hseq]; nofun)

theorem Reported.before (h : Reported failure es t) : ∀ e ∈ es.dropLast, endOf e = .ok := by
  cases h with
  | done hok => exact fun e he => hok e (List.mem_of_mem_dropLast he)
  | failed hcut | never hcut => exact hcut

theorem Reported.response_eq_none_iff (h : Reported failure es t) : t.response = none ↔ LastEnded .never es := by
  cases h with
  | done hok r hr => exact iff_of_false (by simp [hr]) fun hl => nomatch hl.eq_ok hok
  | failed _ hlast hr => exact iff_of_false (by simp [hr]) fun hl => nomatch hl.unique hlast
  | never _ hlast hr => exact iff_of_true hr hlast

theorem Reported.response_eq_none_iff_busy (h : Reported failure es t) : t.response = none ↔ t.seq ≠ none := by
  cases h with
  | done _ r hr _ _ hseq => simp [hr, hseq]
  | failed _ _ hr hseq => simp [hr, hseq]
  | never _ _ hr hseq => exact iff_of_true hr hseq

theorem Reported.response_eq_failure_iff (h : Reported failure es t) :
    t.response = some failure ↔ LastEnded .failed es := by
  cases h with
  | done hok r hr _ hne => exact iff_of_false (by simpa [hr] using hne) fun hl => nomatch hl.eq_ok hok
  | failed _ hlast hr => exact iff_of_true hr hlast
  | never _ hlast hr => exact iff_of_false (by simp [hr]) fun hl => nomatch hl.unique hlast

theorem Reported.q_eq_zero (h : Reported failure es t) (hf : failure.st = .busError → failure.q = 0) {r : Response}
    (hr : t.response = some r) (hst : r.st = .busError) : r.q = 0 := by
  cases h with
  | done _ r' hr' hst' =>
    obtain rfl := Option.some.inj (hr.symm.trans hr')
    exact absurd hst hst'
  | failed _ _ hr' =>
    obtain rfl := Option.some.inj (hr.symm.trans hr')
    exact hf hst
  | never _ _ hr' => cases hr.symm.trans hr'

end

theorem Response.ne_of_st_ne_busError {r : Response} (h : r.st ≠ .busError) : r ≠ respBusError := by
  rintro rfl
  exact h rfl

/-- The response of an operation without a transaction reports that none failed. -/
theorem reported_respond {r : Response} (s : State) (h : r.st ≠ .busError) :
    Reported respBusError [] (s.respond r) :=
  .done nofun r rfl h (Response.ne_of_st_ne_busError h) rfl

/-- A sequence reports a failure as BUS_ERROR (R143). -/
theorem Tx.Follows.reported {b : List BusEvent} {row : List Kind} {x : Tx Response} (h : x.Follows b row)
    (hy : x.Yields Response.IsResult) (hp : x.Ends (InProgress i)) :
    ∃ es, (conclude x).bus = b ++ es ∧ Reported respBusError es (conclude x) := by
  cases x <;> obtain ⟨es, hb, hes⟩ := h <;> refine ⟨es, hb, ?_⟩
  case ok r t =>
    have hst := Response.IsResult.st_ne_busError hy
    exact .done hes.ok r rfl hst (Response.ne_of_st_ne_busError hst) rfl
  case failed t => exact .failed hes.before hes.last rfl rfl
  case never t => exact InProgress.reported hp hes

/-- The probe of `begin`: absence is a failed transaction, and the result is 0 (R126, R143). -/
theorem probe_reported (hp : InProgress i t) {row : List Kind} {es : List BusEvent} (hes : WholeRow row es) :
    Reported (respSuccess false) (es ++ [.probe Config.busAddr (t.answer 0).completion])
      (conclude ((probe t).bind fun present u => .ok (respSuccess present) u)) := by
  have hpr := probe_inProgress hp
  have hcut (d : Completion) : CutRow d (row ++ [.probe]) (es ++ [.probe Config.busAddr d]) :=
    hes.append_cut (cutRow_single rfl rfl)
  rw [probe_eq] at hpr ⊢
  cases hc : (t.answer 0).completion with
  | ok => exact .done (hes.append (wholeRow_single rfl rfl)).ok (respSuccess true) rfl nofun (by decide) rfl
  | failed => exact .failed (hcut .failed).before (hcut .failed).last rfl rfl
  | never =>
    rw [hc] at hpr
    exact InProgress.reported hpr (hcut .never)

/-- `begin` reports a failure as its own result 0 (R126, R143). -/
theorem beginSequence_reported (h : InProgress i s) :
    ∃ es, (conclude (beginSequence s)).bus = s.bus ++ es ∧
      Reported (respSuccess false) es (conclude (beginSequence s)) := by
  have hrow := powerOnSequence_follows s
  have hp := powerOnSequence_inProgress h
  unfold beginSequence
  cases hx : powerOnSequence s <;> rw [hx] at hrow hp <;> obtain ⟨es, hb, hes⟩ := hrow
  case ok v t =>
    have hbus : ((probe t).bind fun present u => Tx.ok (respSuccess present) u).Ends _ :=
      (probe_bus t).bind fun _ _ h => h
    refine ⟨es ++ [.probe Config.busAddr (t.answer 0).completion], ?_, probe_reported hp hes⟩
    rw [conclude_bus, hbus.final, hb, List.append_assoc]
  case failed t => exact ⟨es, hb, .failed hes.before hes.last rfl rfl⟩
  case never t => exact ⟨es, hb, InProgress.reported hp hes⟩

/-- The response by which an operation reports a failed transaction (R126, R143). -/
def failureResponse (i : Instr) : Response := if i = .begin then respSuccess false else respBusError

/-- Every operation reports the end of its last transaction. -/
theorem exec_reported (h : exec i s = .next t) :
    ∃ es, t.bus = s.bus ++ es ∧ Reported (failureResponse i) es t := by
  obtain ⟨r, hst, he, hi⟩ | ⟨run, hrun, he⟩ := exec_eq_pureOp_or_sequence i s <;> rw [he] at h <;>
    obtain ⟨-, rfl⟩ := whenIdle_eq_next.mp h
  · have hb : i ≠ .begin := by
      rintro rfl
      exact hi ⟨rfl, nofun, nofun⟩
    rw [failureResponse, if_neg hb]
    exact ⟨[], (List.append_nil _).symm, reported_respond s hst⟩
  · have hp : InProgress i (s.accept i) := ⟨_, _, held_accept s i⟩
    by_cases hb : i = .begin
    · subst hb
      cases hrun
      exact beginSequence_reported hp
    · rw [failureResponse, if_neg hb]
      exact (hrun.follows hb).reported hrun.yields_isResult (hrun.inProgress hp)

/-! ## The obligations -/

/-- Settles O39: the place and the values read are followed through the sequence up to the transaction that never
completes (`Held`). -/
theorem unfinishedTransactionLeavesCoreBusy : Obligations.UnfinishedTransactionLeavesCoreBusy := by
  unfold Obligations.UnfinishedTransactionLeavesCoreBusy
  intro s hs hsingle
  have hsample : Held .readLight 1 [(s.answer 0).draw] (afterRead .ambientLight (s.accept .readLight)) :=
    (held_accept s .readLight).afterRead .ambientLight
  refine ⟨fun i hi hg ht => exec_readNever hs hsingle ⟨hi, hg, ht⟩, fun h0 h1 => ⟨fun i hi => ?_, fun g fb hg => ?_,
    fun m fb hm => ?_, ?_⟩, fun h0 h1 h2 => ⟨?_, ?_⟩⟩
  · obtain rfl | rfl : i = .powerOn ∨ i = .begin := by simpa using hi
    · exact exec_writeNever hs hsingle ⟨rfl, nofun, nofun⟩ rfl h0 h1
    · exact exec_writeNever hs hsingle ⟨rfl, nofun, nofun⟩ rfl h0 h1
  · refine exec_writeNever hs hsingle ⟨rfl, ?_, nofun⟩ rfl h0 h1
    rintro _ ⟨⟩ hu
    exact hu fb hg
  · refine exec_writeNever hs hsingle ⟨rfl, nofun, ?_⟩ rfl h0 h1
    rintro _ ⟨⟩ hu
    exact hu fb hm
  · exact busOp_held hs ((readLight_second (s := s.accept .readLight) h0).2 h1)
      (hsample.afterReadLost .setting .never)
  · have hword := ((OnlyRead.accepted s .readLight).readSample hsingle).settingReply hsingle
    exact busOp_held hs ((readLight_third (s := s.accept .readLight) h0 h1).2 h2)
      ((hsample.readSetting hword).afterReadLost .setting .never)
  · exact busOp_held hs (beginSequence_probeNever (s := s.accept .begin) h0 h1 h2)
      (((((held_afterRead_setting hsingle .begin).afterWrite _).advance).wait 4).arrive_record _)

/-- Settles O41: the conjuncts are the readings of `Reported`, which every operation's next state satisfies. -/
theorem failedTransactionIsReported : Obligations.FailedTransactionIsReported := by
  unfold Obligations.FailedTransactionIsReported
  intro i s t es _ h hbus
  obtain ⟨es', hbus', hrep⟩ := exec_reported h
  obtain rfl : es' = es := List.append_cancel_left (hbus'.symm.trans hbus)
  have hfail := hrep.response_eq_failure_iff
  refine ⟨hrep.before, hrep.response_eq_none_iff, hrep.response_eq_none_iff_busy, fun hi => ?_, fun hi => ?_,
    fun r => hrep.q_eq_zero ?_⟩
  · rwa [failureResponse, if_neg hi] at hfail
  · rwa [failureResponse, if_pos hi] at hfail
  · unfold failureResponse
    split <;> intro <;> rfl

end Sys2Proof.Machine
end

section
/-! PROOFS of the reset and hazards family (O29, O45 to O47). In a shared session a transaction finds in SETTING what
another master wrote last (`foundSetting`); the lost update and `read_light`'s two SETTING reads turn on that alone. That
the device is powered and settled after `power_on` or `begin` is read off backwards: the response says that the sequence
went through, and a power-on sequence that went through ends in a powered device. -/

open Sys2Proof.Claims

namespace Sys2Proof.Machine

variable {s t : State} {i : Instr} {run : State → Tx Response} {fb : Word} {r : Response}

/-! ## What the transactions of a shared session find in SETTING -/

/-- What the `k`-th transaction from `s` finds in SETTING while the core only reads: the word that another master wrote
last before it, or else the word of `s` (R166). -/
def foundSetting (s : State) : Nat → Word
  | 0 => (s.answer 0).foreign.getD s.setting
  | k + 1 => (s.answer (k + 1)).foreign.getD (foundSetting s k)

theorem foundSetting_accept (s : State) (i : Instr) (k : Nat) : foundSetting (s.accept i) k = foundSetting s k := by
  induction k with
  | zero => rfl
  | succ k ih => rw [foundSetting, accept_answer, ih, ← foundSetting]

section
variable (hshared : s.session = .shared) (hstorage : s.settleReads = .storage)
include hshared

theorem afterRead_setting_shared (reg : ReadReg) : (afterRead reg s).setting = foundSetting s 0 := by
  rw [afterRead_setting, arrive_setting_shared hshared, foundSetting]

theorem foundSetting_afterRead (reg : ReadReg) (k : Nat) :
    foundSetting (afterRead reg s) k = foundSetting s (k + 1) := by
  induction k with
  | zero => rw [foundSetting, afterRead_answer, afterRead_setting_shared hshared, ← foundSetting]
  | succ k ih => rw [foundSetting, afterRead_answer, ih, ← foundSetting]

include hstorage

theorem settingReply_shared : settingReply s = foundSetting s 0 :=
  (settingReply_of_storage hstorage).trans (arrive_setting_shared hshared)

/-- The lost update (R166): a setter leaves the word computed from the one it read, whatever was written in between. -/
theorem exec_setter_shared {keep : Word} {sh : BitVec 4} (hs : s.Idle)
    (hi : exec i s = busOp i (writeField keep fb sh) s) (h0 : (s.answer 0).completion = .ok)
    (h1 : (s.answer 1).completion = .ok) :
    ∃ t, exec i s = .next t ∧ t.response = some (respOk 0) ∧
      t.setting = setField (foundSetting s 0) keep fb sh := by
  have hword : settingReply (s.accept i) = foundSetting s 0 := settingReply_shared (s := s.accept i) hshared hstorage
  rw [hi, busOp_idle hs, writeField, updateSetting_ok (s := s.accept i) _ h0 h1, hword, Tx.bind, conclude,
    advance_respond]
  exact ⟨_, rfl, rfl, (respond_setting _ _).trans (afterWrite_setting_ok _ (by simpa using h1))⟩

/-- The lost update for `power_on` (R166). -/
theorem exec_powerOn_shared (hs : s.Idle) (h0 : (s.answer 0).completion = .ok) (h1 : (s.answer 1).completion = .ok) :
    ∃ t, exec .powerOn s = .next t ∧ t.response = some (respOk 0) ∧ t.setting = powerOnWord (foundSetting s 0) := by
  have hword : settingReply (s.accept .powerOn) = foundSetting s 0 :=
    settingReply_shared (s := s.accept .powerOn) hshared hstorage
  rw [exec_powerOn, busOp_idle hs, powerOnSequence_ok (s := s.accept .powerOn) h0 h1, Tx.bind, conclude, ← hword]
  exact ⟨_, rfl, rfl, (respond_setting _ _).trans (poweredOn_setting h1)⟩

/-- `read_light` takes the gain and the time from two words that another master may have made different (R125, R166). -/
theorem exec_readLight_shared (hs : s.Idle) (h0 : (s.answer 0).completion = .ok)
    (h1 : (s.answer 1).completion = .ok) (h2 : (s.answer 2).completion = .ok) :
    ∃ t, exec .readLight s = .next t ∧
      t.response = some (measureResponse convTable (s.answer 0).draw
        ((decodeGain (gainField (foundSetting s 1))).q.setWidth 16)
        ((decodeIntegrationTime (itField (foundSetting s 2))).q.setWidth 16)) ∧
      t.setting = foundSetting s 2 := by
  have hfirst : settingReply (afterRead .ambientLight (s.accept .readLight)) = foundSetting s 1 := by
    rw [settingReply_shared (by simpa) (by simpa), foundSetting_afterRead (by simpa), foundSetting_accept]
  have hsecond : settingReply (afterRead .setting (afterRead .ambientLight (s.accept .readLight))) =
      foundSetting s 2 := by
    rw [settingReply_shared (by simpa) (by simpa), foundSetting_afterRead (by simpa),
      foundSetting_afterRead (by simpa), foundSetting_accept]
  rw [exec_readLight, busOp_idle hs, readLight_ok (s := s.accept .readLight) h0 h1 h2, hfirst, hsecond]
  refine ⟨_, rfl, rfl, ?_⟩
  rw [conclude, respond_setting, afterRead_setting_shared (by simpa), foundSetting_afterRead (by simpa),
    foundSetting_afterRead (by simpa), foundSetting_accept]

end

/-! ## A power-on sequence that goes through -/

theorem Tx.bind_eq_ok {α β : Type} {x : Tx α} {f : α → State → Tx β} {w : β} (h : x.bind f = .ok w t) :
    ∃ v u, x = .ok v u ∧ f v u = .ok w t := by
  cases x with
  | ok v u => exact ⟨v, u, rfl, h⟩
  | failed | never => cases h

theorem regWrite16_eq_ok {v : Word} (h : regWrite16 v s = .ok () t) : t.setting = v := by
  rw [regWrite16_eq] at h
  cases hc : (s.answer 0).completion with
  | ok =>
    rw [hc] at h
    cases h
    exact afterWrite_setting_ok v hc
  | failed | never =>
    rw [hc] at h
    cases h

/-- The write clears SD and the wait ends the settling interval (R124, R165). -/
theorem powerOnSequence_powered (h : powerOnSequence s = .ok () t) : t.powered = true := by
  obtain ⟨_, u, hupdate, hwait⟩ := Tx.bind_eq_ok h
  obtain ⟨r, _, -, hwrite⟩ := Tx.bind_eq_ok hupdate
  cases hwait
  simp [State.powered, regWrite16_eq_ok hwrite, sdBit_powerOnWord]

theorem SettingKept.powered (h : SettingKept s t) : t.powered = s.powered := by
  rw [State.powered, h.setting, h.settling, State.powered]

theorem probe_settingKept (hs : s.session = .single) : (probe s).Ends (SettingKept s) :=
  probe_ends (fun _ => by constructor <;> simp [arrive_setting hs, arrive_settling hs]) fun _ h => { h with }

/-- `begin` answers 1 only when the power-on sequence and the probe went through (R126). -/
theorem beginSequence_eq_success (h : beginSequence s = .ok (respSuccess true) t) :
    ∃ u, powerOnSequence s = .ok () u ∧ probe u = .ok true t := by
  rw [beginSequence] at h
  cases hx : powerOnSequence s with
  | ok _ u =>
    rw [hx] at h
    obtain ⟨present, _, hprobe, hend⟩ := Tx.bind_eq_ok h
    cases present <;> cases hend
    exact ⟨u, rfl, hprobe⟩
  | failed | never =>
    rw [hx] at h
    cases h

theorem beginSequence_powered (hs : s.session = .single) (h : beginSequence s = .ok (respSuccess true) t) :
    t.powered = true := by
  obtain ⟨u, hpower, hprobe⟩ := beginSequence_eq_success h
  have hsession : (powerOnSequence s).Ends (Untouched s) := powerOnSequence_untouched (.refl s)
  rw [hpower] at hsession
  have hkept := probe_settingKept (hsession.session.trans hs)
  rw [hprobe] at hkept
  exact hkept.powered.trans (powerOnSequence_powered hpower)

/-- A response other than BUS_ERROR is the value of a sequence that went through (R143). -/
theorem run_eq_ok_of_exec (hs : s.Idle) (hrun : Sequence i run) (hi : exec i s = busOp i run s)
    (h : exec i s = .next t) (hr : t.response = some r) (hne : r ≠ respBusError) :
    ∃ u, run (s.accept i) = .ok r u ∧ t = u.respond r := by
  have hflight := hrun.inProgress ⟨0, [], held_accept s i⟩
  rw [hi, busOp_idle hs] at h
  cases h
  cases hx : run (s.accept i) with
  | ok _ u =>
    rw [hx] at hr
    cases hr
    exact ⟨u, rfl, rfl⟩
  | failed u =>
    rw [hx] at hr
    cases hr
    exact absurd rfl hne
  | never u =>
    rw [hx] at hr hflight
    obtain ⟨_, _, hheld⟩ := hflight
    cases hheld.response.symm.trans hr

theorem respond_powered (s : State) (r : Response) : (s.respond r).powered = s.powered := rfl

theorem State.powered_iff : s.powered = true ↔ s.setting.getLsbD 0 = false ∧ s.settling = false := by
  simp [State.powered, sdBit]

/-- A SETTING read of a powered device returns the stored word (R165). -/
theorem settingWord_of_powered (h : s.powered = true) (k : Nat) : settingWord s k = s.setting := by
  obtain ⟨hsd, hsettling⟩ := State.powered_iff.mp h
  rw [settingWord, hsd, hsettling]
  simp

/-! ## The obligations -/

/-- Settles O45: each SETTING word that the core reads is `foundSetting`, whatever another master wrote; the fields of
those words are then what `measure` gets. -/
theorem interleavedWriteIsLost : Obligations.InterleavedWriteIsLost := by
  unfold Obligations.InterleavedWriteIsLost
  intro s hs hshared hstorage h0 h1
  refine ⟨fun g fb hg => ?_, fun m fb hm => ?_, ?_, fun h2 => ?_⟩
  · obtain ⟨x, rfl, rfl⟩ := mem_gains_iff.mp hg
    obtain ⟨t, ht, hresponse, hsetting⟩ :=
      exec_setter_shared hshared hstorage hs (exec_setGain_of_some (Gain.ofQ_toQ x)) h0 h1
    exact ⟨t, ht, hresponse, hsetting⟩
  · obtain ⟨x, rfl, rfl⟩ := mem_times_iff.mp hm
    obtain ⟨t, ht, hresponse, hsetting⟩ :=
      exec_setter_shared hshared hstorage hs (exec_setIntegrationTime_of_some (ITime.ofMs_toMs x)) h0 h1
    exact ⟨t, ht, hresponse, hsetting⟩
  · rw [← powerOnWord_eq]
    exact exec_powerOn_shared hshared hstorage hs h0 h1
  · obtain ⟨t, ht, hresponse, hsetting⟩ := exec_readLight_shared hshared hstorage hs h0 h1 h2
    refine ⟨fun g m hg hm => ?_, fun hr2 => ?_⟩
    · rw [decodeGain_q_setWidth (r := foundSetting s 1) hg,
        decodeIntegrationTime_q_setWidth (r := foundSetting s 2) (.inl hm)] at hresponse
      exact ⟨t, _, ht, pureOp_idle hs, hresponse, hsetting⟩
    · rw [decodeIntegrationTime_of_not_recognised (r := foundSetting s 2) hr2,
        measureResponse_of_unsupported _ _ (.inr unsupportedTime_image)] at hresponse
      exact ⟨t, ht, hresponse, hsetting⟩

/-- Settles O46: the response says that the sequence went through, and such a sequence leaves the device powered. -/
theorem powerOnSettlesTheDevice : Obligations.PowerOnSettlesTheDevice := by
  unfold Obligations.PowerOnSettlesTheDevice
  intro s t hs hsingle h
  have hpowered : t.powered = true := by
    obtain ⟨hexec, hr⟩ | ⟨hexec, hr⟩ := h
    · obtain ⟨u, hrun, rfl⟩ := run_eq_ok_of_exec hs .powerOn exec_powerOn hexec hr nofun
      obtain ⟨_, _, hpower, hend⟩ := Tx.bind_eq_ok hrun
      cases hend
      rw [respond_powered, powerOnSequence_powered hpower]
    · obtain ⟨u, hrun, rfl⟩ := run_eq_ok_of_exec hs .begin exec_begin hexec hr nofun
      rw [respond_powered, beginSequence_powered (s := s.accept .begin) hsingle hrun]
  obtain ⟨hsd, hsettling⟩ := State.powered_iff.mp hpowered
  exact ⟨hsd, hsettling, settingWord_of_powered hpowered⟩

/-- Settles O29: both images are unsupported operands, and 260 is the polynomial's floor at 255. -/
theorem sentinelFedOnward : Obligations.SentinelFedOnward := by
  unfold Obligations.SentinelFedOnward
  intro s raw g t hs
  have hg : Unsupported 0x07F8 := gainCodec.image_not_mem
  have ht : UnsupportedTime 255 := timeCodec.image_not_mem
  have h260 : compensate 255 = 260 := by decide
  exact ⟨gainCodec.encode_of_not_mem hs hg, timeCodec.encode_of_not_mem hs ht,
    exec_selectConversionConstant_of_unsupported hs (.inl hg),
    exec_selectConversionConstant_of_unsupported hs (.inr ht),
    exec_rawToLux_of_unsupported hs raw (.inl hg), exec_rawToLux_of_unsupported hs raw (.inr ht),
    exec_measure_of_unsupported hs raw (.inl hg), exec_measure_of_unsupported hs raw (.inr ht),
    h260 ▸ exec_compensate hs 255⟩

/-- Settles O47: `resetCore` by whether an operation is in flight. -/
theorem resetLeavesIdleCoreAndDevice : Obligations.ResetLeavesIdleCoreAndDevice := by
  unfold Obligations.ResetLeavesIdleCoreAndDevice
  refine ⟨rfl, rfl, fun s hs => ?_, fun s q hq => ?_⟩
  · rw [resetCore, hs]
  · rw [resetCore, hq]

end Sys2Proof.Machine
end

section
/-! PROOFS of the remaining family: the decoder against the encoder (O1), a step against the decoder (O4, O5), a busy
core (O6, O7), the pure operations (O30) and reset (O49). A canonical command is determined by its code and by the ports
its operation reads, since the other ports are 0; so decoding and encoding need to agree on those only. -/

namespace Sys2Proof.Machine

variable {s : State} {i : Instr} {w v : Command} {rest : List Command} {q : Sequencer}

/-! ## Ports that are read and ports that are ignored -/

/-- Port `a` is its two halves (R60). -/
theorem eq_of_halves {a a' : BitVec 32} (hhigh : a.extractLsb' 16 16 = a'.extractLsb' 16 16)
    (hlow : a.extractLsb' 0 16 = a'.extractLsb' 0 16) : a = a' := by
  have hjoin (x : BitVec 32) : x.extractLsb' 16 16 ++ x.extractLsb' 0 16 = x :=
    (BitVec.extractLsb'_append_extractLsb'_eq_extractLsb' (by decide)).trans x.extractLsb'_eq_self
  rw [← hjoin a, hhigh, hlow, hjoin]

/-- A word written to port `a` is read back from its low half. -/
@[simp] theorem extractLsb'_setWidth_low (a : Word) : (a.setWidth 32).extractLsb' 0 16 = a := by
  rw [← BitVec.setWidth_eq_extractLsb' (by decide), BitVec.setWidth_setWidth_of_le _ (by decide), BitVec.setWidth_eq]

theorem sameOperands_iff : w.sameOperands v = true ↔
    w.op = v.op ∧ ((portUse w.op).aWhole = true → w.a = v.a) ∧ ((portUse w.op).aLow = true → w.aLow = v.aLow) ∧
      ((portUse w.op).b = true → w.b = v.b) ∧ ((portUse w.op).c = true → w.c = v.c) ∧
      ((portUse w.op).sh = true → w.sh = v.sh) := by
  simp [Command.sameOperands, Command.aLow, and_assoc, imp_iff_not_or]

theorem ignoredPortsZero_iff : w.ignoredPortsZero = true ↔
    ((portUse w.op).aWhole = false → w.a.extractLsb' 16 16 = 0) ∧ ((portUse w.op).aLow = false → w.aLow = 0) ∧
      ((portUse w.op).b = false → w.b = 0) ∧ ((portUse w.op).c = false → w.c = 0) ∧
      ((portUse w.op).sh = false → w.sh = 0) := by
  simp [Command.ignoredPortsZero, Command.aLow, and_assoc, imp_iff_not_or]

/-- A port holds the same in two commands if they agree on it where it is read and hold 0 in it where it is not. -/
theorem port_eq {α : Type} {x y zero : α} {reads : Bool} (hread : reads = true → x = y)
    (hx : reads = false → x = zero) (hy : reads = false → y = zero) : x = y := by
  cases reads with
  | true => exact hread rfl
  | false => exact (hx rfl).trans (hy rfl).symm

/-- Commands that write 0 to the ports they ignore are equal when they agree on the others (R69). -/
theorem eq_of_sameOperands (h : w.sameOperands v = true) (hw : w.ignoredPortsZero = true)
    (hv : v.ignoredPortsZero = true) : w = v := by
  obtain ⟨hop, haWhole, haLow, hb, hc, hsh⟩ := sameOperands_iff.mp h
  obtain ⟨haHigh₁, haLow₁, hb₁, hc₁, hsh₁⟩ := ignoredPortsZero_iff.mp hw
  obtain ⟨haHigh₂, haLow₂, hb₂, hc₂, hsh₂⟩ := ignoredPortsZero_iff.mp hv
  rw [← hop] at haHigh₂ haLow₂ hb₂ hc₂ hsh₂
  have ha : w.a = v.a :=
    eq_of_halves (port_eq (fun hread => by rw [haWhole hread]) haHigh₁ haHigh₂) (port_eq haLow haLow₁ haLow₂)
  cases w
  cases v
  rw [Command.mk.injEq]
  exact ⟨hop, ha, port_eq hb hb₁ hb₂, port_eq hc hc₁ hc₂, port_eq hsh hsh₁ hsh₂⟩

/-! ## Decoding and encoding -/

theorem decode_encode (i : Instr) : decode (encode i) = .ok i := by
  cases i <;> simp [encode, decode, Command.bare, Command.aLow]

theorem encode_wellFormed : ∀ i, (encode i).wellFormed = true
  | .encodeGain b => Laws.Canonical.encodeGain b
  | .decodeGain a => Laws.Canonical.decodeGain a
  | .encodeIntegrationTime c => Laws.Canonical.encodeIntegrationTime c
  | .decodeIntegrationTime a => Laws.Canonical.decodeIntegrationTime a
  | .setField a b c sh => Laws.Canonical.setField a b c sh
  | .powerOnWord a => Laws.Canonical.powerOnWord a
  | .selectConversionConstant b c => Laws.Canonical.selectConversionConstant b c
  | .rawToLux a b c => Laws.Canonical.rawToLux a b c
  | .compensate a => Laws.Canonical.compensate a
  | .measure a b c => Laws.Canonical.measure a b c
  | .setGain b => Laws.Canonical.setGain b
  | .getGain => Laws.Canonical.getGain
  | .setIntegrationTime c => Laws.Canonical.setIntegrationTime c
  | .getIntegrationTime => Laws.Canonical.getIntegrationTime
  | .powerOn => Laws.Canonical.powerOn
  | .readLight => Laws.Canonical.readLight
  | .begin => Laws.Canonical.begin

theorem ignoredPortsZero_of_wellFormed (h : w.wellFormed = true) : w.ignoredPortsZero = true :=
  (Bool.and_eq_true_iff.mp h).2

/-- A command and the encoding of what it decodes to differ in ignored ports only (R60, R61). -/
theorem sameOperands_encode (h : decode w = .ok i) : w.sameOperands (encode i) = true := by
  have hop := op_of_decode h
  rw [sameOperands_iff]
  refine ⟨hop, ?_⟩
  rw [hop]
  unfold decode at h
  split at h
  case h_18 => cases h
  all_goals
    cases h
    simp [encode, Command.bare, portUse, Command.aLow]

/-- The decoder reads nothing but the code and the ports of its operation (R60, R61). -/
theorem decode_congr (h : w.sameOperands v = true) : decode w = decode v := by
  obtain ⟨hop, haWhole, haLow, hb, hc, hsh⟩ := sameOperands_iff.mp h
  unfold decode
  rw [← hop]
  split
  case h_18 => rfl
  all_goals
    next hcode =>
      simp only [portUse, hcode, forall_const] at haWhole haLow hb hc hsh
      simp only [haWhole, haLow, hb, hc, hsh]

theorem decode_of_decodeTableWord {nbits n : Nat} (h : decodeTableWord nbits n = some i) :
    decode (commandOfTableWord nbits n) = .ok i := by
  unfold decodeTableWord at h
  split at h <;> cases h
  assumption

/-! ## Operations and steps of a busy core and of an idle one -/

theorem exec_busy (hq : s.seq = some q) (i : Instr) : exec i s = .refused .commandWhileBusy := by
  obtain ⟨r, he⟩ | ⟨run, -, he⟩ := exec_eq_pureOp_or_busOp i s
  · exact he.trans (whenIdle_busy hq)
  · exact he.trans (whenIdle_busy hq)

theorem step_busy (hq : s.seq = some q) (hc : s.commands = w :: rest) : step s = .refused .commandWhileBusy := by
  cases hd : decode w with
  | ok i => exact (step_of_decode_ok hc hd).trans (exec_busy (s := { s with commands := rest }) hq i)
  | error e => exact (step_of_decode_error hc hd).trans (whenIdle_busy hq)

theorem safeStep_of_idle (hs : s.Idle) : SafeStep s := by
  cases hc : s.commands with
  | nil => exact ⟨s, step_of_nil hc⟩
  | cons w rest =>
    cases hd : decode w with
    | ok i =>
      obtain ⟨t, ht⟩ := exec_idle_exists (s := { s with commands := rest }) hs i
      exact ⟨t, (step_of_decode_ok hc hd).trans ht⟩
    | error e => exact ⟨_, (step_of_decode_error hc hd).trans (pureOp_idle hs)⟩

/-- Outside the bus group an operation's response is fixed before any state is given (R9, R66). -/
theorem exec_eq_pureOp_of_group (h : i.group ≠ .bus) : ∃ r, ∀ s, exec i s = pureOp r s := by
  cases i with
  | encodeGain | decodeGain | encodeIntegrationTime | decodeIntegrationTime | setField | powerOnWord
  | selectConversionConstant | rawToLux | compensate | measure => exact ⟨_, fun _ => rfl⟩
  | setGain | getGain | setIntegrationTime | getIntegrationTime | powerOn | readLight | begin => exact absurd rfl h

/-! ## The obligations -/

/-- Settles O1: a command agrees with the encoding of what it decodes to on every port read, and an encoding, like a
well-formed command, holds 0 in the others. -/
theorem decodeAndEncodeAgree : Obligations.DecodeAndEncodeAgree := by
  unfold Obligations.DecodeAndEncodeAgree
  refine ⟨decode_encode, fun w i h => ?_, fun _ _ => decode_congr⟩
  have hsame := sameOperands_encode h
  exact ⟨hsame, fun hw => (eq_of_sameOperands hsame (ignoredPortsZero_of_wellFormed hw)
    (ignoredPortsZero_of_wellFormed (encode_wellFormed i))).symm⟩

/-- Settles O4: the two ways a step begins, by what is presented. -/
theorem stepRunsTheDecodedOperation : Obligations.StepRunsTheDecodedOperation := by
  unfold Obligations.StepRunsTheDecodedOperation
  exact ⟨fun _ _ _ _ => step_of_decode_ok, fun _ => step_of_nil⟩

/-- Settles O5: the placed command is the head, and the decoder reads from it what `decodeTableWord` does. -/
theorem tableWordRunsNext : Obligations.TableWordRunsNext := by
  unfold Obligations.TableWordRunsNext
  exact fun _ _ _ _ h => step_of_decode_ok rfl (decode_of_decodeTableWord h)

/-- Settles O6: a busy core refuses every command and an idle one answers it; with no command none is refused. -/
theorem stepsAreRefusedOnlyWhileBusy : Obligations.StepsAreRefusedOnlyWhileBusy := by
  unfold Obligations.StepsAreRefusedOnlyWhileBusy
  intro s
  have hrefused (hq : s.seq ≠ none) (hc : s.commands ≠ []) : step s = .refused .commandWhileBusy := by
    obtain ⟨q, hq⟩ := Option.ne_none_iff_exists'.mp hq
    obtain ⟨w, rest, hc⟩ := List.exists_cons_of_ne_nil hc
    exact step_busy hq hc
  refine ⟨⟨?_, fun h => ?_⟩, hrefused⟩
  · rintro ⟨t, ht⟩ ⟨hq, hc⟩
    cases (hrefused hq hc).symm.trans ht
  · obtain hs | hc : s.seq = none ∨ s.commands = [] := by rwa [ne_eq, ne_eq, ← not_or, not_not] at h
    · exact safeStep_of_idle hs
    · exact ⟨s, step_of_nil hc⟩

/-- Settles O7: whatever an operation does, it does when the core is idle. -/
theorem busyCoreTakesNoCommand : Obligations.BusyCoreTakesNoCommand := by
  unfold Obligations.BusyCoreTakesNoCommand
  exact fun _ _ hq => ⟨exec_busy hq, step_of_nil⟩

/-- Settles O30: the operations outside the bus group are pure, and `pureOp` changes the response alone. -/
theorem pureOperationsDependOnOperandsAlone : Obligations.PureOperationsDependOnOperandsAlone := by
  unfold Obligations.PureOperationsDependOnOperandsAlone
  intro i hi
  obtain ⟨r, hr⟩ := exec_eq_pureOp_of_group hi
  exact ⟨r, fun s hs => (hr s).trans (pureOp_idle hs)⟩

/-- Settles O49: nothing is in flight, no response stands and the bus history is empty. -/
theorem resetMeetsTheInvariant : Obligations.ResetMeetsTheInvariant := by
  unfold Obligations.ResetMeetsTheInvariant
  exact ⟨nofun, nofun, nofun, nofun⟩

end Sys2Proof.Machine
end
